-- ==== Sys2Proof/Word.lean ====
section
/-! DEFINITION. The widths the manual uses (00_scope.md, Conventions): a byte is 8 bits, a word 32 bits; two-byte
numbers of the link are 16 bits. -/

namespace Sys2Proof

/-- A byte (8 bits). -/
abbrev Byte := BitVec 8

/-- A two-byte number of the link: a threshold, a count, a sequence number. -/
abbrev Half := BitVec 16

/-- A word (32 bits): a byte address on the path, a mask, a value, the tick count. -/
abbrev Word := BitVec 32

end Sys2Proof
end

