-- ==== Sys2Proof/Syntax.lean ====
section
/-! DEFINITION. The commands and events of the D3214: `Instr` has one constructor for each row of spec/opcode_table.json,
with the operands the manual gives the row. `Command` is what a batch is divided into (R145, R184): the batch in State
holds these, and a command row of `Instr` is the executor's taking of the batch's next command. -/

namespace Sys2Proof

/-- The tag of a request, which selects its transit slot (R1). -/
abbrev Tag := Fin 8

/-- The index of a match entry (R26). -/
abbrev EntryIndex := Fin 16

/-- The kind of a transaction (R1). -/
inductive Kind
  | read
  | write
  | fetch
  deriving DecidableEq, Repr

/-- The size of an access (R1): 1, 2 or 4 bytes, or a LINE of 16. -/
inductive Size
  | one
  | two
  | four
  | line
  deriving DecidableEq, Repr

/-- The privilege a request carries (R1). -/
inductive Privilege
  | priv
  | user
  deriving DecidableEq, Repr

/-- The status of a response (R2, R3). -/
inductive RespStatus
  | done
  | fault
  deriving DecidableEq, Repr

/-- A request as the requester port takes it (R1). `data` is the write data in address order; it is empty where the
request carries none (READ and FETCH). -/
structure Request where
  tag : Tag
  kind : Kind
  addr : Word
  size : Size
  priv : Privilege
  data : List Byte
  deriving DecidableEq, Repr

/-- A return from memory (R3): the tag it carries (which the monitor does not use), its status, and its data, empty
where it carries none. -/
structure MemReturn where
  tag : Tag
  status : RespStatus
  data : List Byte
  deriving DecidableEq, Repr

/-- A pod frame whose check byte has been taken (R114). Its length byte is the length of `payload`. -/
structure Frame where
  dest : Byte
  control : Byte
  payload : List Byte
  check : Byte
  deriving DecidableEq, Repr

/-- A command of a batch with its operands, numbers decoded (R182, R184), or one of the three last commands that cannot
run (R146), each with the byte its entry echoes. -/
inductive Command
  | status
  | getIdentity
  | readEntry (index : Byte)
  | writeEntry (index : Byte) (image : List Byte)
  | enableEntry (index : Byte)
  | disableEntry (index : Byte)
  | armEntry (index : Byte)
  | disarmEntry (index : Byte)
  | clearCount (index : Byte)
  | readOverlay (start count : Byte)
  | writeOverlay (start count : Byte) (data : List Byte)
  | readTrace (count : Byte)
  | ackTrace (count : Half)
  | traceControl (mode : Byte) (threshold : Half) (flags : Byte)
  | listHolds
  | inspect (id : Byte)
  | release (id : Byte)
  | amend (id length : Byte) (data : List Byte)
  | fail (id : Byte)
  | extend (id : Byte) (units : Half)
  | setMode (mode : Byte)
  | peek (addr : Word) (size : Byte)
  | poke (addr : Word) (size : Byte) (data : List Byte)
  | accessResult (id : Byte)
  | eventClear
  | resetRequester
  | clearUnit
  | setGroup (group : Byte)
  | forget
  | attentionControl (enable : Byte)
  | badOpcode (byte : Byte)
  | cutCommand (opcode : Byte)
  | surplusCommand (byte : Byte)
  deriving DecidableEq, Repr

/-- The block's commands and events: one constructor for each row of spec/opcode_table.json, in the table's order. -/
inductive Instr
  /-- REQUEST_ARRIVAL: the requester presents `r`. -/
  | requestArrival (r : Request)
  /-- RESPONSE_TAKEN: the requester accepts the presented response. -/
  | responseTaken
  /-- MEMORY_PORT_GRANT: the arbiter makes one grant. -/
  | memoryPortGrant
  /-- MEMORY_RETURN: memory returns `r`. -/
  | memoryReturn (r : MemReturn)
  /-- TICK: one microsecond; `bitSlot` says whether the unit took a bit slot of the link since the tick before. -/
  | tick (bitSlot : Bool)
  /-- BUDGET_STEP: the step that a tenth tick makes. -/
  | budgetStep
  /-- HOLD_EXPIRY: the oldest record whose budget has reached 0 ends. -/
  | holdExpiry
  /-- RQRST_IN_ASSERTED. -/
  | rqrstInAsserted
  /-- RQRST_IN_DEASSERTED. -/
  | rqrstInDeasserted
  /-- PULSE_END: the requester-reset output pulse ends. -/
  | pulseEnd
  /-- POR_N_ASSERTED. -/
  | porNAsserted
  /-- POR_N_RELEASED: `rqrstIn` is the level of RQRST_IN that the signal unit finds. -/
  | porNReleased (rqrstIn : Bool)
  /-- MEMORY_RETURN_DURING_POR. -/
  | memoryReturnDuringPor (r : MemReturn)
  /-- FRAME_START: a fall of LDA while LCK is high. -/
  | frameStart
  /-- GAP_ABORT. -/
  | gapAbort
  /-- RESPONSE_GAP_ABANDON. -/
  | responseGapAbandon
  /-- ROUND_GAP_ABANDON. -/
  | roundGapAbandon
  /-- OVERLENGTH_FRAME: the three bytes taken up to the length byte. -/
  | overlengthFrame (dest control length : Byte)
  /-- BAD_CHECK_FRAME: the check byte of `f` has been taken and is wrong. -/
  | badCheckFrame (f : Frame)
  /-- COMMAND_FRAME. -/
  | commandFrame (f : Frame)
  /-- GROUP_COMMAND_FRAME. -/
  | groupCommandFrame (f : Frame)
  /-- READBACK_FRAME. -/
  | readbackFrame (f : Frame)
  /-- ENUM_FRAME. -/
  | enumFrame (f : Frame)
  /-- POLL_FRAME. -/
  | pollFrame (f : Frame)
  /-- FRAME_NOT_ACTED_ON. -/
  | frameNotActedOn (f : Frame)
  /-- DEFERRED_FRAME_ACTION. -/
  | deferredFrameAction
  /-- BATCH_END. -/
  | batchEnd
  /-- RESPONSE_SENT: the last bit of the response's check byte has been sent. -/
  | responseSent
  /-- ROUND_START: a slot of the ready phase reads 1. -/
  | roundStart
  /-- ENUM_COMPLETE: the unit has sent the last bit of its part of an ENUM round without losing. -/
  | enumComplete
  /-- POLL_COMPLETE: the same of a POLL round. -/
  | pollComplete
  /-- STATUS. -/
  | status
  /-- GET_IDENTITY. -/
  | getIdentity
  /-- READ_ENTRY. -/
  | readEntry (index : Byte)
  /-- WRITE_ENTRY. -/
  | writeEntry (index : Byte) (image : List Byte)
  /-- ENABLE_ENTRY. -/
  | enableEntry (index : Byte)
  /-- DISABLE_ENTRY. -/
  | disableEntry (index : Byte)
  /-- ARM_ENTRY. -/
  | armEntry (index : Byte)
  /-- DISARM_ENTRY. -/
  | disarmEntry (index : Byte)
  /-- CLEAR_COUNT. -/
  | clearCount (index : Byte)
  /-- READ_OVERLAY. -/
  | readOverlay (start count : Byte)
  /-- WRITE_OVERLAY. -/
  | writeOverlay (start count : Byte) (data : List Byte)
  /-- READ_TRACE. -/
  | readTrace (count : Byte)
  /-- ACK_TRACE. -/
  | ackTrace (count : Half)
  /-- TRACE_CONTROL. -/
  | traceControl (mode : Byte) (threshold : Half) (flags : Byte)
  /-- LIST_HOLDS. -/
  | listHolds
  /-- INSPECT. -/
  | inspect (id : Byte)
  /-- RELEASE. -/
  | release (id : Byte)
  /-- AMEND. -/
  | amend (id length : Byte) (data : List Byte)
  /-- FAIL. -/
  | fail (id : Byte)
  /-- EXTEND. -/
  | extend (id : Byte) (units : Half)
  /-- SET_MODE. -/
  | setMode (mode : Byte)
  /-- PEEK. -/
  | peek (addr : Word) (size : Byte)
  /-- POKE. -/
  | poke (addr : Word) (size : Byte) (data : List Byte)
  /-- ACCESS_RESULT. -/
  | accessResult (id : Byte)
  /-- EVENT_CLEAR. -/
  | eventClear
  /-- RESET_REQUESTER. -/
  | resetRequester
  /-- CLEAR_UNIT: the first of its five events, at the trace unit. -/
  | clearUnit
  /-- CLEAR_UNIT_HOLDS: the second, at the hold controller. -/
  | clearUnitHolds
  /-- CLEAR_UNIT_MATCH_TABLE: the third, at the match unit. -/
  | clearUnitMatchTable
  /-- CLEAR_UNIT_OVERLAY: the fourth, at the overlay store. -/
  | clearUnitOverlay
  /-- CLEAR_UNIT_EVENT_LATCH: the fifth, at the signal unit. -/
  | clearUnitEventLatch
  /-- SET_GROUP. -/
  | setGroup (group : Byte)
  /-- FORGET. -/
  | forget
  /-- ATTENTION_CONTROL. -/
  | attentionControl (enable : Byte)
  /-- BAD_OPCODE. -/
  | badOpcode (byte : Byte)
  /-- CUT_COMMAND. -/
  | cutCommand (opcode : Byte)
  /-- SURPLUS_COMMAND. -/
  | surplusCommand (byte : Byte)
  /-- ARBITRATION_LOSS: in slot `slot` of the round proper the unit sent a 1 and reads a 0. -/
  | arbitrationLoss (slot : Nat)
  deriving DecidableEq, Repr

end Sys2Proof
end

