-- ==== Sys2Proof/Decode.lean ====
section
/-! DEFINITION. What the block decodes: the check byte (R115), the control byte (R183), and the division of a batch's
payload into commands (R145, R146, R184). No row of spec/opcode_table.json gives bits, so `decodeTableWord` answers none. -/

namespace Sys2Proof

/-- The bytes an access of a size touches; 16 for a LINE (R1, R4). -/
def Size.bytes : Size → Nat
  | .one => 1
  | .two => 2
  | .four => 4
  | .line => 16

/-- A two-byte number, most significant byte first (R182). -/
def half (hi lo : Byte) : Half := (hi ++ lo : BitVec (8 + 8))

/-- A four-byte number, most significant byte first (R182). -/
def word (b3 b2 b1 b0 : Byte) : Word := (b3 ++ b2 ++ b1 ++ b0 : BitVec (8 + 8 + 8 + 8))

/-- The two bytes of a number in the order they travel (R182). -/
def halfBytes (h : Half) : List Byte := [h.extractLsb' 8 8, h.extractLsb' 0 8]

/-- The four bytes of a number in the order they travel (R182). -/
def wordBytes (w : Word) : List Byte :=
  [w.extractLsb' 24 8, w.extractLsb' 16 8, w.extractLsb' 8 8, w.extractLsb' 0 8]

/-- A number below 256 as one byte. -/
def byteOf (n : Nat) : Byte := BitVec.ofNat 8 n

/-- A number below 65536 as its two bytes, most significant first (R182). -/
def natBytes (n : Nat) : List Byte := halfBytes (BitVec.ofNat 16 n)

/-! ### The check byte (R115) -/

/-- One shift of the CRC-8 register: left by one bit, then 0x2F combined in if the dropped bit was 1 (R115). -/
def crcShift (r : Byte) : Byte := if r.msb then (r <<< 1) ^^^ 0x2F else r <<< 1

/-- The register after taking one byte: exclusive OR, then eight shifts (R115). -/
def crcByte (r b : Byte) : Byte :=
  crcShift (crcShift (crcShift (crcShift (crcShift (crcShift (crcShift (crcShift (r ^^^ b))))))))

/-- The CRC-8 of a string of bytes, from a register of 0xFF (R115). -/
def crc8 (bs : List Byte) : Byte := bs.foldl crcByte 0xFF

/-- The bytes of a pod frame that its check byte covers: destination, control, length, payload (R114, R115). -/
def Frame.covered (f : Frame) : List Byte := f.dest :: f.control :: byteOf f.payload.length :: f.payload

/-- The unit runs the register over the frame and its check byte, and finds 0 when the check byte is right (R115). -/
def Frame.good (f : Frame) : Bool := crc8 (f.covered ++ [f.check]) = 0

/-! ### The control byte (R183) -/

/-- The four defined frame kinds (R114). -/
inductive FrameKind
  | command
  | readback
  | enum
  | poll
  deriving DecidableEq, Repr

/-- The frame kind of a control byte; none where bits 6-3 are not 0 or the kind is undefined (R182, R183). -/
def frameKind (control : Byte) : Option FrameKind :=
  if control &&& 0x78 = 0 then
    if control &&& 0x07 = 1 then some .command
    else if control &&& 0x07 = 2 then some .readback
    else if control &&& 0x07 = 3 then some .enum
    else if control &&& 0x07 = 4 then some .poll
    else none
  else none

/-- The continue-on-error flag, bit 7 of the control byte (R183). -/
def continueFlag (control : Byte) : Bool := control.getLsbD 7

/-! ### Dividing a payload into commands (R145, R146, R184) -/

/-- The command that begins at the head of a payload: a whole one with the rest of the payload, one cut off by the end
of the payload, or a byte that names none (R145, R146). -/
inductive Division
  | whole (c : Command) (rest : List Byte)
  | cut
  | unknown
  deriving DecidableEq, Repr

/-- A command whose operand is the next byte. -/
def take1 (r : List Byte) (k : Byte → List Byte → Division) : Division :=
  match r with
  | a :: r => k a r
  | [] => .cut

/-- A command whose next operand is a two-byte number. -/
def take2 (r : List Byte) (k : Half → List Byte → Division) : Division :=
  match r with
  | a :: b :: r => k (half a b) r
  | _ => .cut

/-- A command whose next operand is a four-byte number. -/
def take4 (r : List Byte) (k : Word → List Byte → Division) : Division :=
  match r with
  | a :: b :: c :: d :: r => k (word a b c d) r
  | _ => .cut

/-- A command whose next operand is a string of `n` bytes. -/
def takeN (n : Nat) (r : List Byte) (k : List Byte → List Byte → Division) : Division :=
  if n ≤ r.length then k (r.take n) (r.drop n) else .cut

/-- The data bytes a POKE's size byte calls for: as many as the size for 1, 2 and 4, none otherwise (R145). -/
def pokeDataLength (size : Byte) : Nat := if size = 1 ∨ size = 2 ∨ size = 4 then size.toNat else 0

/-- The command whose opcode byte is `op`, its operands taken from `r` (R145, R184). -/
def takeCommand (op : Byte) (r : List Byte) : Division :=
  match op.toNat with
  | 0x01 => .whole .status r
  | 0x02 => .whole .getIdentity r
  | 0x10 => take1 r fun i r => .whole (.readEntry i) r
  | 0x11 => take1 r fun i r => takeN 27 r fun im r => .whole (.writeEntry i im) r
  | 0x12 => take1 r fun i r => .whole (.enableEntry i) r
  | 0x13 => take1 r fun i r => .whole (.disableEntry i) r
  | 0x14 => take1 r fun i r => .whole (.armEntry i) r
  | 0x15 => take1 r fun i r => .whole (.disarmEntry i) r
  | 0x16 => take1 r fun i r => .whole (.clearCount i) r
  | 0x20 => take1 r fun st r => take1 r fun c r => .whole (.readOverlay st c) r
  | 0x21 => take1 r fun st r => take1 r fun c r => takeN (4 * c.toNat) r fun d r => .whole (.writeOverlay st c d) r
  | 0x28 => take1 r fun n r => .whole (.readTrace n) r
  | 0x29 => take2 r fun n r => .whole (.ackTrace n) r
  | 0x2A => take1 r fun m r => take2 r fun t r => take1 r fun f r => .whole (.traceControl m t f) r
  | 0x30 => .whole .listHolds r
  | 0x31 => take1 r fun h r => .whole (.inspect h) r
  | 0x32 => take1 r fun h r => .whole (.release h) r
  | 0x33 => take1 r fun h r => take1 r fun l r => takeN l.toNat r fun d r => .whole (.amend h l d) r
  | 0x34 => take1 r fun h r => .whole (.fail h) r
  | 0x35 => take1 r fun h r => take2 r fun u r => .whole (.extend h u) r
  | 0x38 => take1 r fun m r => .whole (.setMode m) r
  | 0x40 => take4 r fun a r => take1 r fun sz r => .whole (.peek a sz) r
  | 0x41 => take4 r fun a r => take1 r fun sz r => takeN (pokeDataLength sz) r fun d r => .whole (.poke a sz d) r
  | 0x42 => take1 r fun i r => .whole (.accessResult i) r
  | 0x50 => .whole .eventClear r
  | 0x51 => .whole .resetRequester r
  | 0x52 => .whole .clearUnit r
  | 0x60 => take1 r fun g r => .whole (.setGroup g) r
  | 0x61 => .whole .forget r
  | 0x62 => take1 r fun e r => .whole (.attentionControl e) r
  | _ => .unknown

/-- Division of a payload of which up to `n` commands remain to be found (R145, R146): bytes left after the sixteenth
command are one surplus command; an unknown opcode or a cut command is the last. -/
def divideUpTo : Nat → List Byte → List Command
  | _, [] => []
  | 0, b :: _ => [.surplusCommand b]
  | n + 1, b :: r =>
    match takeCommand b r with
    | .whole c rest => c :: divideUpTo n rest
    | .cut => [.cutCommand b]
    | .unknown => [.badOpcode b]

/-- The commands of a batch: up to sixteen, and a seventeenth made of surplus bytes (R145, R146). -/
def dividePayload (payload : List Byte) : List Command := divideUpTo 16 payload

/-- The opcode byte of a command, or the byte its entry echoes (R146, R148, R184). -/
def Command.echo : Command → Byte
  | .status => 0x01
  | .getIdentity => 0x02
  | .readEntry _ => 0x10
  | .writeEntry _ _ => 0x11
  | .enableEntry _ => 0x12
  | .disableEntry _ => 0x13
  | .armEntry _ => 0x14
  | .disarmEntry _ => 0x15
  | .clearCount _ => 0x16
  | .readOverlay _ _ => 0x20
  | .writeOverlay _ _ _ => 0x21
  | .readTrace _ => 0x28
  | .ackTrace _ => 0x29
  | .traceControl _ _ _ => 0x2A
  | .listHolds => 0x30
  | .inspect _ => 0x31
  | .release _ => 0x32
  | .amend _ _ _ => 0x33
  | .fail _ => 0x34
  | .extend _ _ => 0x35
  | .setMode _ => 0x38
  | .peek _ _ => 0x40
  | .poke _ _ _ => 0x41
  | .accessResult _ => 0x42
  | .eventClear => 0x50
  | .resetRequester => 0x51
  | .clearUnit => 0x52
  | .setGroup _ => 0x60
  | .forget => 0x61
  | .attentionControl _ => 0x62
  | .badOpcode b => b
  | .cutCommand b => b
  | .surplusCommand b => b

/-- The operand bytes of a command in the order they follow the opcode (R184); none for the three commands of R146,
whose bytes are not divided. -/
def Command.operands : Command → List Byte
  | .status | .getIdentity | .listHolds | .eventClear | .resetRequester | .clearUnit | .forget => []
  | .readEntry i | .enableEntry i | .disableEntry i | .armEntry i | .disarmEntry i | .clearCount i => [i]
  | .writeEntry i im => i :: im
  | .readOverlay st c => [st, c]
  | .writeOverlay st c d => st :: c :: d
  | .readTrace n => [n]
  | .ackTrace n => halfBytes n
  | .traceControl m t f => m :: (halfBytes t ++ [f])
  | .inspect h | .release h | .fail h => [h]
  | .amend h l d => h :: l :: d
  | .extend h u => h :: halfBytes u
  | .setMode m => [m]
  | .peek a sz => wordBytes a ++ [sz]
  | .poke a sz d => wordBytes a ++ (sz :: d)
  | .accessResult i => [i]
  | .setGroup g => [g]
  | .attentionControl e => [e]
  | .badOpcode _ | .cutCommand _ | .surplusCommand _ => []

/-- The bytes of a command in a payload: its opcode byte and its operands (R145, R184). -/
def Command.encode (c : Command) : List Byte := c.echo :: c.operands

/-- The command that a word spells by the bits of spec/opcode_table.json: no row of the table gives bits. -/
def decodeTableWord (_nbits _w : Nat) : Option Instr := none

end Sys2Proof
end

