-- ==== Sys2Proof/Config.lean ====
section
/-! DEFINITION. What one part fixes and the manual leaves open: the identity given at manufacture (R126) and the free
values of the model (R3: which unused tag a request sent to memory carries; R16: bytes that a return too short for its access
does not have). None has a body: no proof can see a value. -/

namespace Sys2Proof.Config

/-- The family code of every D3214 (R126). -/
def familyCode : Half := 0x3214

/-- The serial number, fixed at manufacture and not given by the manual (R126; log entry 3). -/
opaque serialNumber : Word

/-- The revision byte, fixed at manufacture and not given by the manual (R126; log entry 3). -/
opaque revisionByte : Byte

/-- FREE VALUE: which of the unused tags 0-7 the n-th request sent to memory carries. R3 says only that it differs from
the tag of every other access in the issue list (log entry 4). -/
opaque memoryTagChoice : Nat → Nat

/-- FREE VALUE: byte `k` of the data that a return shorter than its access leaves unstated, for the access of the n-th
grant. R16 says only that the access receives the wrong data (log entry 13). -/
opaque missingReturnByte : Nat → Nat → Byte

end Sys2Proof.Config
end

