-- ==== Sys2Proof/Machine/State.lean ====
section
/-! DEFINITION. The state of the D3214 as plain data: every piece of state the manual names, by block (00_scope.md), the
model's own counter, and the queue of commands that are waiting. `State.reset` is the part right after POR_N is released. -/

namespace Sys2Proof.Machine

/-! ### Match table (R26) -/

/-- The kinds an entry looks at (R26). -/
structure KindSet where
  read : Bool
  write : Bool
  fetch : Bool
  deriving DecidableEq, Repr

/-- The privilege an entry looks at (R26). -/
inductive PrivFilter
  | any
  | priv
  | user
  deriving DecidableEq, Repr

/-- A test on a transaction's data (R26, R29). -/
structure DataCond where
  mask : Word
  value : Word
  deriving DecidableEq, Repr

/-- What an entry asks for when it fires (R26). -/
inductive Action
  | pass
  | hold
  | overlay
  | fault
  deriving DecidableEq, Repr

/-- Where a hold stops a transaction (R26). -/
inductive Point
  | before
  | after
  deriving DecidableEq, Repr

/-- How a hold ends when its budget runs out (R26). -/
inductive Policy
  | proceed
  | fault
  deriving DecidableEq, Repr

/-- The effect of an arm link (R26, R38). -/
inductive ArmEffect
  | arm
  | disarm
  deriving DecidableEq, Repr

/-- An arm link: the target entry and what becomes of its armed state (R26). -/
structure ArmLink where
  target : EntryIndex
  effect : ArmEffect
  deriving DecidableEq, Repr

/-- The configuration of a match entry (R26). -/
structure EntryConfig where
  base : Word
  limit : Word
  kinds : KindSet
  filter : PrivFilter
  cond : Option DataCond
  threshold : Nat
  action : Action
  point : Point
  budget : Nat
  policy : Policy
  offset : Nat
  log : Bool
  signal : Bool
  oneshot : Bool
  link : Option ArmLink
  deriving DecidableEq, Repr

/-- A match entry: configuration and live state (R26). -/
structure MatchEntry where
  config : EntryConfig
  enabled : Bool
  armed : Bool
  hits : Nat
  deriving DecidableEq, Repr

/-! ### Transit table (R7) -/

/-- What the match unit decides for a transaction at arrival, with copies of the deciding entry's values (R7, R33). -/
inductive Disposition
  | pass
  | hold (entry : EntryIndex) (point : Point) (budget : Nat) (policy : Policy)
  | overlay (entry : EntryIndex) (base limit : Word) (offset : Nat)
  | fault (entry : EntryIndex)
  deriving DecidableEq, Repr

/-- A response to the requester (R2); `data` is empty where it carries none. -/
structure BusResponse where
  status : RespStatus
  data : List Byte
  deriving DecidableEq, Repr

/-- The state of a slot that is not FREE, with the response where it has one (R7). -/
inductive Stage
  | parked
  | held
  | waiting
  | issued
  | heldResponse (r : BusResponse)
  | answering (r : BusResponse)
  | orphan
  deriving DecidableEq, Repr

/-- The record of a transit slot that is not FREE (R7). A request that fails the protocol check has no disposition. -/
structure Transaction where
  position : Nat
  request : Request
  disposition : Option Disposition
  stage : Stage
  deriving DecidableEq, Repr

/-! ### Issue list and injected accesses (R13, R102) -/

/-- A request as it goes down to memory (R1, R3, R108). -/
structure MemRequest where
  tag : Tag
  kind : Kind
  addr : Word
  size : Size
  priv : Privilege
  data : List Byte
  deriving DecidableEq, Repr

/-- What an issue list entry names (R13). -/
inductive IssueTarget
  | slot (tag : Tag)
  | injected (id : Byte)
  deriving DecidableEq, Repr

/-- An access outstanding on the memory port (R13) and the request sent for it. -/
structure IssueEntry where
  target : IssueTarget
  sent : MemRequest
  deriving DecidableEq, Repr

/-- A read or a write of the pod's own (R102). -/
inductive AccessKind
  | peek
  | poke
  deriving DecidableEq, Repr

/-- Where an injected access stands (R102). -/
inductive AccessState
  | waiting
  | issued
  | done
  | faulted
  deriving DecidableEq, Repr

/-- An injected access record (R102); `size` is never LINE; `data` is empty where absent. -/
structure Access where
  id : Byte
  kind : AccessKind
  addr : Word
  size : Size
  data : List Byte
  state : AccessState
  deriving DecidableEq, Repr

/-! ### Hold queue (R50) -/

/-- A hold record (R50); `data` is empty where absent, `downstream` is none for a BEFORE hold. -/
structure Hold where
  id : Byte
  tag : Tag
  entry : EntryIndex
  point : Point
  kind : Kind
  addr : Word
  size : Size
  priv : Privilege
  data : List Byte
  downstream : Option RespStatus
  remaining : Nat
  policy : Policy
  extended : Nat
  amended : Bool
  deriving DecidableEq, Repr

/-! ### Trace log (R86) -/

/-- The kind of a trace record (R86, R87). -/
inductive RecordKind
  | fire
  | lateFire
  | holdEnd
  | protocol
  | system
  deriving DecidableEq, Repr

/-- The outcome of a trace record (R86). -/
inductive TraceOutcome
  | passed
  | held
  | overlaid
  | faulted
  | overlayStraddle
  | holdRefused
  | holdSuppressed
  | released
  | amendedReleased
  | failed
  | expiredProceeded
  | expiredFaulted
  | dropped
  | cleared
  | misaligned
  | malformed
  | requesterReset
  deriving DecidableEq, Repr

/-- The four fields of a trace record that are present together (R86). -/
structure TraceAccess where
  kind : Kind
  size : Size
  priv : Privilege
  addr : Word
  deriving DecidableEq, Repr

/-- What a block sends to the trace unit: a record without the number and stamp that the trace unit gives (R86 to R89);
`data` is empty where absent. -/
structure TraceNote where
  kind : RecordKind
  entry : Option EntryIndex
  hold : Option Byte
  access : Option TraceAccess
  data : List Byte
  outcome : TraceOutcome
  deriving DecidableEq, Repr

/-- A trace record in the log (R86). -/
structure TraceRecord where
  seq : Half
  stamp : Word
  note : TraceNote
  deriving DecidableEq, Repr

/-- The mode of the log (R90, R91). -/
inductive TraceMode
  | stop
  | wrap
  deriving DecidableEq, Repr

/-! ### Link interface (R127, R138) -/

/-- The four attention flags (R138). -/
inductive Flag
  | join
  | hold
  | expiry
  | trace
  deriving DecidableEq, Repr

/-- The attention pending set (R138): a pending HOLD, EXPIRY or TRACE flag carries a detail byte. -/
structure Attention where
  join : Bool
  hold : Option Byte
  expiry : Option Byte
  trace : Option Byte
  deriving DecidableEq, Repr

/-- The status of a response frame (R121). -/
inductive FrameStatus
  | ok
  | part
  | rejectCheck
  | empty
  deriving DecidableEq, Repr

/-- A response frame as built, its check byte included (R121, R124). -/
structure Response where
  status : FrameStatus
  payload : List Byte
  check : Byte
  deriving DecidableEq, Repr

/-- The round that an accepted ENUM or POLL frame opens (R128, R131, R139). -/
inductive RoundKind
  | enum (offered : Byte)
  | poll
  deriving DecidableEq, Repr

/-- A unit's part in a round: the offered address, or the copied flag with its detail and whether the flag has been
posted since the copy was taken (R131, R139, R142). -/
inductive RoundPart
  | enum (offered : Byte)
  | poll (flag : Flag) (detail : Byte) (reposted : Bool)
  deriving DecidableEq, Repr

/-- The receiver state (section 7.2, R113): RUNNING is `running` while the unit's own batch runs and `waiting` while a
frame taken during an earlier batch waits for its end; `ready` is the ready phase of a round (R128). -/
inductive Receiver
  | idle
  | receiving
  | running
  | waiting (f : Frame)
  | responding (r : Response)
  | ready (k : RoundKind)
  | round (p : RoundPart)
  deriving DecidableEq, Repr

/-! ### Command executor (section 9.1) -/

/-- The status of a command (9.3, R184). -/
inductive CmdStatus
  | ok
  | badOpcode
  | badOperand
  | badEntry
  | entryBusy
  | noHold
  | badKind
  | extendLimit
  | queueFull
  | hazard
  | noAccess
  | notDone
  | noRoom
  | notRun
  deriving DecidableEq, Repr

/-- An entry of the response payload: opcode echo, status, results (R148). -/
structure ResultEntry where
  echo : Byte
  status : CmdStatus
  results : List Byte
  deriving DecidableEq, Repr

/-- The event of CLEAR-UNIT that comes next (R171). -/
inductive ClearStep
  | holds
  | matchTable
  | overlay
  | eventLatch
  deriving DecidableEq, Repr

/-- The batch in progress (section 9.1): its commands, the position of the next, the continue-on-error flag, whether the
frame was addressed, the entries made so far, whether the batch has been stopped (R149), and how far a CLEAR-UNIT in it
has come (R171). -/
structure Batch where
  commands : List Command
  position : Nat
  continueOnError : Bool
  addressed : Bool
  entries : List ResultEntry
  stopped : Bool
  clearing : Option ClearStep
  deriving DecidableEq, Repr

/-! ### The state -/

/-- The state of one D3214. -/
structure State where
  /-- POR_N is asserted (R180). -/
  porAsserted : Bool
  /-- RQRST_IN as the signal unit last took it (R177). -/
  rqrstIn : Bool
  /-- The requester-reset output pulse: none, or its remaining time in ticks (R178). -/
  pulse : Option Nat
  /-- The event latch (R176). -/
  eventLatch : Bool
  /-- The tick count (R175). -/
  tickCount : Word
  /-- The transit table: none is FREE (R7). -/
  transit : Vector (Option Transaction) 8
  /-- The next position in the arrival order (R6). -/
  nextPosition : Nat
  /-- The request presented at the requester port and not yet accepted (R5). -/
  presented : Option Request
  /-- The answer queue, oldest first (R20). -/
  answerQueue : List Tag
  /-- The issue list, oldest first (R13). -/
  issueList : List IssueEntry
  /-- The fairness count (R15). -/
  fairness : Nat
  /-- The match table (R26). -/
  table : Vector MatchEntry 16
  /-- The hold queue, oldest first (R49). -/
  holds : List Hold
  /-- The next hold id (R51). -/
  nextHoldId : Byte
  /-- The refused-hold count (R56). -/
  refusedHolds : Nat
  /-- No-hold mode (R55). -/
  noHold : Bool
  /-- The budget divider (R67). -/
  divider : Nat
  /-- MODEL's own: a tenth tick has been counted and its budget step is next (log entry 5). -/
  budgetDue : Bool
  /-- The overlay store: the bytes that are not 0, by byte offset (R74). -/
  store : List Host.Cell
  /-- The trace log, oldest first (R85). -/
  log : List TraceRecord
  /-- The next sequence number (R88). -/
  nextSeq : Half
  /-- The lost count (R92). -/
  lost : Nat
  /-- The mode of the log (R99). -/
  traceMode : TraceMode
  /-- The trace threshold (R98). -/
  threshold : Nat
  /-- The protocol-records flag (R93). -/
  protocolRecords : Bool
  /-- The injected access queue, oldest first (R102). -/
  injected : List Access
  /-- The next access id (R103). -/
  nextAccessId : Byte
  /-- The receiver state (R113). -/
  receiver : Receiver
  /-- Ticks since the last bit slot, up to 2001 (R116). -/
  gap : Nat
  /-- The link address (R127). -/
  linkAddress : Option Byte
  /-- The group address (R127). -/
  groupAddress : Option Byte
  /-- The attention enable (R143). -/
  attentionEnable : Bool
  /-- The attention pending set (R138). -/
  attention : Attention
  /-- The kept last response (R124). -/
  kept : Option Response
  /-- The check error count (R125). -/
  checkErrors : Nat
  /-- A FORGET has run whose effect is not yet taken (R135, R136). -/
  forgetPending : Bool
  /-- The serial number (R126). -/
  serial : Word
  /-- The revision byte (R126). -/
  revision : Byte
  /-- The batch in progress (9.1). -/
  batch : Option Batch
  /-- MODEL's own: the counter of the free value (log entry 4). -/
  freeCount : Nat
  /-- MODEL's own: the commands and events that are waiting, first in, first out. -/
  pending : List Instr
  deriving DecidableEq, Repr

/-- The configuration of an entry after power-on reset: zero but for a threshold of 1 (R26). -/
def EntryConfig.powerOn : EntryConfig :=
  { base := 0, limit := 0, kinds := ⟨false, false, false⟩, filter := .any, cond := none, threshold := 1,
    action := .pass, point := .before, budget := 0, policy := .proceed, offset := 0,
    log := false, signal := false, oneshot := false, link := none }

/-- An entry after power-on reset: disabled, disarmed, hit counter 0 (R26). -/
def MatchEntry.powerOn : MatchEntry :=
  { config := EntryConfig.powerOn, enabled := false, armed := false, hits := 0 }

/-- The part right after POR_N is released, with RQRST_IN not asserted, nothing presented and nothing waiting
(R25, R26, R73, R74, R100, R111, R127, R181; log entries 3, 4, 7, 9). -/
def State.reset : State :=
  { porAsserted := false, rqrstIn := false, pulse := none, eventLatch := false, tickCount := 0,
    transit := Vector.replicate 8 none, nextPosition := 0, presented := none, answerQueue := [], issueList := [],
    fairness := 0,
    table := Vector.replicate 16 MatchEntry.powerOn,
    holds := [], nextHoldId := 0, refusedHolds := 0, noHold := false, divider := 0, budgetDue := false,
    store := [],
    log := [], nextSeq := 0, lost := 0, traceMode := .stop, threshold := 0, protocolRecords := false,
    injected := [], nextAccessId := 1,
    receiver := .idle, gap := 0, linkAddress := none, groupAddress := none, attentionEnable := true,
    attention := ⟨true, none, none, none⟩, kept := none, checkErrors := 0, forgetPending := false,
    serial := Config.serialNumber, revision := Config.revisionByte,
    batch := none, freeCount := 0, pending := [] }

/-- Why the block stops. -/
inductive Fault
  /-- Raised by REQUEST_ARRIVAL: an OVERLAY disposition maps the access to a byte offset outside 0-1023, which does not
  exist (R74). Safe: it cannot happen while every enabled entry is legal, as R43 and R45 keep it (log entry 11). -/
  | overlayAddress
  deriving DecidableEq, Repr

/-- Why the model gives a command no meaning. -/
inductive Refusal
  /-- Raised by `exec` for a row that has no meaning yet; no arm answers with it. Safe. -/
  | notModelled (mnemonic : String)
  deriving DecidableEq, Repr

/-- The outcome of a command or a step. -/
abbrev Result := Host.Outcome State Fault Refusal

end Sys2Proof.Machine
end

