-- ==== Sys2Proof/Machine/Flags.lean ====
section
/-! DEFINITION. The attention flags (R138 to R142): posting, ranking and clearing them, and the post as an operation on
the state, which also marks a copy of the flag that a POLL round is sending (R142). -/

namespace Sys2Proof.Machine

/-- A post sets the flag pending with the detail given; a flag already pending has its detail replaced (R138). -/
def Attention.set (f : Flag) (d : Byte) (a : Attention) : Attention :=
  match f with
  | .join => { a with join := true }
  | .hold => { a with hold := some d }
  | .expiry => { a with expiry := some d }
  | .trace => { a with trace := some d }

/-- The set without a flag (R138, R142). -/
def Attention.clear (f : Flag) (a : Attention) : Attention :=
  match f with
  | .join => { a with join := false }
  | .hold => { a with hold := none }
  | .expiry => { a with expiry := none }
  | .trace => { a with trace := none }

/-- The highest-ranked pending flag and its detail, 0 for JOIN: JOIN, then HOLD, then EXPIRY, then TRACE (R139, R140). -/
def Attention.highest (a : Attention) : Option (Flag × Byte) :=
  if a.join then some (.join, 0)
  else match a.hold with
    | some d => some (.hold, d)
    | none => match a.expiry with
      | some d => some (.expiry, d)
      | none => match a.trace with
        | some d => some (.trace, d)
        | none => none

/-- A post of the flag that a POLL round is sending marks the copy as posted again (R142). -/
def Receiver.notePost (f : Flag) (r : Receiver) : Receiver :=
  match r with
  | .round (.poll g d again) => .round (.poll g d (again || decide (f = g)))
  | .round (.enum a) => .round (.enum a)
  | .idle => .idle
  | .receiving => .receiving
  | .running => .running
  | .waiting fr => .waiting fr
  | .responding p => .responding p
  | .ready k => .ready k

/-- A post taken by the link interface when `c` holds (R70, R98, R138). -/
def State.postIf (c : Bool) (f : Flag) (d : Byte) (s : State) : State :=
  { s with
    attention := if c then s.attention.set f d else s.attention
    receiver := if c then s.receiver.notePost f else s.receiver }

/-- A post taken by the link interface (R138). -/
def State.post (f : Flag) (d : Byte) (s : State) : State := s.postIf true f d

end Sys2Proof.Machine
end

