-- ==== Sys2Proof/Machine/Ops.lean ====
section
/-! DEFINITION. The named operations over the overlay store, the transit table, the trace log and the link state that the
meanings share. Each is one update of State whose unchanged fields are unchanged by definition. -/

namespace Sys2Proof.Machine

/-! ### The overlay store as canonical memory (R74) -/

/-- The byte at an address; a byte that is not listed reads as 0, its value after power-on (R74). -/
def Memory.read (m : List Host.Cell) (a : Nat) : Byte :=
  match m with
  | [] => 0
  | (b, v) :: m => if a = b then v else Memory.read m a

/-- Writing a byte: addresses stay strictly rising, and a byte equal to 0 is not listed. -/
def Memory.write (m : List Host.Cell) (a : Nat) (v : Byte) : List Host.Cell :=
  match m with
  | [] => if v = 0 then [] else [(a, v)]
  | (b, w) :: m =>
    if a < b then (if v = 0 then (b, w) :: m else (a, v) :: (b, w) :: m)
    else if a = b then (if v = 0 then m else (a, v) :: m)
    else (b, w) :: Memory.write m a v

/-- The canonical form: addresses strictly rising, no listed byte equal to 0. -/
def Memory.wf : List Host.Cell → Bool
  | [] => true
  | [(_, v)] => decide (v ≠ 0)
  | (a, v) :: (b, w) :: m => decide (v ≠ 0) && decide (a < b) && Memory.wf ((b, w) :: m)

/-- Every listed byte is one of the store's 1024 (R74). -/
def Memory.inStore (m : List Host.Cell) : Bool := m.all fun c => c.1 < 1024

/-- `n` consecutive bytes from an address on, lowest first. -/
def Memory.readRange (m : List Host.Cell) (a : Nat) : Nat → List Byte
  | 0 => []
  | n + 1 => Memory.read m a :: Memory.readRange m (a + 1) n

/-- Writing consecutive bytes from an address on, lowest first. -/
def Memory.writeRange (m : List Host.Cell) (a : Nat) : List Byte → List Host.Cell
  | [] => m
  | v :: vs => Memory.writeRange (Memory.write m a v) (a + 1) vs

/-! ### The transit table (R7) -/

/-- The eight tags. -/
def allTags : List Tag := List.finRange 8

/-- The record of a tag's slot; none when it is FREE. -/
def State.slot (s : State) (t : Tag) : Option Transaction := s.transit[t]

/-- A slot is given a record. -/
def State.putSlot (t : Tag) (x : Transaction) (s : State) : State :=
  { s with transit := s.transit.set t (some x) }

/-- A slot goes to FREE and loses its record (R7). -/
def State.freeSlot (t : Tag) (s : State) : State :=
  { s with transit := s.transit.set t none }

/-- A slot goes to ANSWERING with a response and joins the answer queue (R20). -/
def State.answerSlot (t : Tag) (x : Transaction) (r : BusResponse) (s : State) : State :=
  { s with
    transit := s.transit.set t (some { x with stage := .answering r })
    answerQueue := s.answerQueue ++ [t] }

/-- The FAULT response, which carries no data (R2). -/
def faultResponse : BusResponse := ⟨.fault, []⟩

/-! ### The trace log (R85 to R98) -/

/-- The log holds 256 records (R85). -/
def State.logFull (s : State) : Bool := decide (256 ≤ s.log.length)

/-- A record sent now would be discarded: the log is full in STOP mode (R90). -/
def State.logDiscards (s : State) : Bool := s.logFull && decide (s.traceMode = .stop)

/-- An append now raises the fill from one less than the threshold to the threshold (R98). -/
def State.meetsThreshold (s : State) : Bool :=
  !s.logFull && decide (s.threshold ≠ 0) && decide (s.log.length + 1 = s.threshold)

/-- The fill as one byte, 256 shown as 255 (R95, R98). -/
def fillByte (n : Nat) : Byte := byteOf (min n 255)

/-- A record sent to the trace unit: appended with the next number and the tick count as its stamp (R88, R89), discarded
by a full log in STOP mode (R90), or appended after the oldest in WRAP mode (R91); the lost count (R92); TRACE attention
when the fill reaches the threshold (R98). -/
def State.append (s : State) (n : TraceNote) : State :=
  { s with
    log :=
      if s.logDiscards then s.log
      else (if s.logFull then s.log.drop 1 else s.log) ++ [⟨s.nextSeq, s.tickCount, n⟩]
    nextSeq := if s.logDiscards then s.nextSeq else s.nextSeq + 1
    lost := if s.logFull then min (s.lost + 1) 65535 else s.lost
    attention := if s.meetsThreshold then s.attention.set .trace (fillByte s.threshold) else s.attention
    receiver := if s.meetsThreshold then s.receiver.notePost .trace else s.receiver }

/-- The records of one event, appended in the order the event sends them (R94). -/
def State.appendAll (ns : List TraceNote) (s : State) : State := ns.foldl State.append s

/-! ### The link state (R127, R135) -/

/-- FORGET's effect: both addresses are dropped and JOIN is set (R135, R136). -/
def State.forgetNow (s : State) : State :=
  { s with
    linkAddress := if s.forgetPending then none else s.linkAddress
    groupAddress := if s.forgetPending then none else s.groupAddress
    attention := if s.forgetPending then s.attention.set .join 0 else s.attention
    forgetPending := false }

/-- The receiver moves. -/
def State.toReceiver (r : Receiver) (s : State) : State := { s with receiver := r }

/-- A response frame with its check byte, over status, length and payload (R115, R121, R183). -/
def FrameStatus.code : FrameStatus → Byte
  | .ok => 0x00
  | .part => 0x01
  | .rejectCheck => 0x02
  | .empty => 0x03

/-- The bytes a response's check byte covers (R115, R121). -/
def responseCovered (st : FrameStatus) (payload : List Byte) : List Byte :=
  st.code :: byteOf payload.length :: payload

/-- The response frame of a status and a payload (R121). -/
def buildResponse (st : FrameStatus) (payload : List Byte) : Response :=
  ⟨st, payload, crc8 (responseCovered st payload)⟩

/-- The unit begins to send a response: the receiver goes to RESPONDING and the pause is measured anew (R116, R121; log
entry 6). -/
def State.respond (r : Response) (s : State) : State := { s with receiver := .responding r, gap := 0 }

/-- The response in RESPONDING has ended, sent or abandoned: a FORGET takes its effect and the receiver is IDLE (R121,
R122, R135). -/
def State.endResponse (s : State) : State := s.forgetNow.toReceiver .idle

end Sys2Proof.Machine
end

