-- ==== Sys2Proof/Machine/Match.lean ====
section
/-! DEFINITION. The match unit (chapter 2): the four tests, hit, count and fire, the early disposition, and the effects
of firing. -/

namespace Sys2Proof.Machine

/-- The sixteen entry indices, ascending (R26). -/
def allEntries : List EntryIndex := List.finRange 16

/-! ### The tests (R27 to R29) -/

/-- The transaction touches a byte between the window base and limit, both included (R27). -/
def EntryConfig.inWindow (c : EntryConfig) (r : Request) : Bool :=
  decide (r.addr.toNat ≤ c.limit.toNat) && decide (c.base.toNat ≤ r.addr.toNat + r.size.bytes - 1)

/-- The kind is among an entry's kinds (R28). -/
def KindSet.has (k : KindSet) : Kind → Bool
  | .read => k.read
  | .write => k.write
  | .fetch => k.fetch

/-- The privilege passes the filter (R28). -/
def PrivFilter.passes : PrivFilter → Privilege → Bool
  | .any, _ => true
  | .priv, p => decide (p = .priv)
  | .user, p => decide (p = .user)

/-- A data string as a number, the byte at the lowest address least significant. -/
def leNat : List Byte → Nat
  | [] => 0
  | b :: bs => b.toNat + 256 * leNat bs

/-- The number of bits below the lowest lane an access touches in its aligned word (R29). -/
def laneShift (a : Word) : Nat := 8 * (a.toNat % 4)

/-- The bits of the aligned word that lie in a lane the access touches (R29). -/
def laneMask (a : Word) (n : Nat) : Word := BitVec.ofNat 32 ((2 ^ (8 * n) - 1) * 2 ^ laneShift a)

/-- The data of an access placed in the aligned word that contains it, each byte in the lane of its address (R29). -/
def laneWord (a : Word) (data : List Byte) : Word := BitVec.ofNat 32 (leNat data * 2 ^ laneShift a)

/-- The data condition holds: not a LINE; every selected bit lies in a touched lane and equals the value's bit (R29). -/
def DataCond.holds (c : DataCond) (r : Request) (data : List Byte) : Bool :=
  decide (r.size ≠ .line) && decide (c.mask &&& ~~~(laneMask r.addr r.size.bytes) = 0) &&
    decide (c.mask &&& laneWord r.addr data = c.mask &&& c.value)

/-- The entry takes part in an evaluation of a transaction of this kind: without a data condition early for every kind it
names; with one early for WRITE, late for READ and FETCH (R30). -/
def EntryConfig.takesPart (c : EntryConfig) (late : Bool) (k : Kind) : Bool :=
  c.kinds.has k &&
    (if late then c.cond.isSome && decide (k ≠ .write) else c.cond.isNone || decide (k = .write))

/-- The entry hits: enabled, armed, takes part, window, privilege, and its data condition if it has one (R32). -/
def MatchEntry.hitsOn (e : MatchEntry) (late : Bool) (r : Request) (data : List Byte) : Bool :=
  e.enabled && e.armed && e.config.takesPart late r.kind && e.config.inWindow r && e.config.filter.passes r.priv &&
    (match e.config.cond with
     | none => true
     | some c => c.holds r data)

/-- A hit of the entry would bring its counter to the threshold (R32). -/
def MatchEntry.full (e : MatchEntry) : Bool := decide (e.config.threshold ≤ e.hits + 1)

/-- The entries that fire in an evaluation, in ascending order; every test is made on the table as the evaluation begins
(R32, R34, R39). -/
def firedEntries (tb : Vector MatchEntry 16) (late : Bool) (r : Request) (data : List Byte) : List EntryIndex :=
  allEntries.filter fun i => tb[i].hitsOn late r data && tb[i].full

/-- The counters after an evaluation: a hit adds one, or returns the counter to 0 where the entry fires (R32). -/
def countHits (tb : Vector MatchEntry 16) (late : Bool) (r : Request) (data : List Byte) : Vector MatchEntry 16 :=
  Vector.ofFn fun i =>
    if tb[i].hitsOn late r data then
      { tb[i] with hits := if tb[i].full then 0 else tb[i].hits + 1 }
    else tb[i]

/-! ### Effects of firing (R34, R36 to R38) -/

/-- An entry's armed state is set. -/
def setArmed (i : EntryIndex) (a : Bool) (tb : Vector MatchEntry 16) : Vector MatchEntry 16 :=
  tb.set i { tb[i] with armed := a }

/-- ONESHOT disarms the firing entry (R37). -/
def oneshotEffect (tb : Vector MatchEntry 16) (i : EntryIndex) : Vector MatchEntry 16 :=
  if tb[i].config.oneshot then setArmed i false tb else tb

/-- The arm link sets the target's armed state (R38). -/
def linkEffect (tb : Vector MatchEntry 16) (i : EntryIndex) : Vector MatchEntry 16 :=
  match tb[i].config.link with
  | none => tb
  | some l => setArmed l.target (decide (l.effect = .arm)) tb

/-- The effects of one firing entry on armed states: its ONESHOT, then its arm link (R34). -/
def armEffects (tb : Vector MatchEntry 16) (i : EntryIndex) : Vector MatchEntry 16 := linkEffect (oneshotEffect tb i) i

/-- The match table and the event latch after an evaluation: hits counted, then each firing entry's effects in ascending
order (R32, R34, R36). -/
def State.evaluated (late : Bool) (r : Request) (data : List Byte) (s : State) : State :=
  { s with
    table := (firedEntries s.table late r data).foldl armEffects (countHits s.table late r data)
    eventLatch := s.eventLatch || (firedEntries s.table late r data).any fun i => s.table[i].config.signal }

/-- The deciding entry: the lowest-indexed firing entry whose action is not PASS (R33, R41). -/
def decidingEntry (tb : Vector MatchEntry 16) (fired : List EntryIndex) : Option EntryIndex :=
  fired.find? fun i => decide (tb[i].config.action ≠ .pass)

/-- The disposition that an entry's action gives, with copies of its values (R33). -/
def EntryConfig.disposition (c : EntryConfig) (i : EntryIndex) : Disposition :=
  match c.action with
  | .pass => .pass
  | .hold => .hold i c.point c.budget c.policy
  | .overlay => .overlay i c.base c.limit c.offset
  | .fault => .fault i

/-- The early disposition (R33). -/
def earlyDisposition (tb : Vector MatchEntry 16) (fired : List EntryIndex) : Disposition :=
  match decidingEntry tb fired with
  | none => .pass
  | some i => tb[i].config.disposition i

/-! ### Records of an evaluation (R35, R42) -/

/-- The transaction fields of a trace record (R86). -/
def traced (r : Request) : TraceAccess := ⟨r.kind, r.size, r.priv, r.addr⟩

/-- What an evaluation's records say, and the record of a refused hold that follows them (R35, R53, R94). -/
structure Verdict where
  outcome : TraceOutcome
  hold : Option Byte
  after : List TraceNote
  deriving DecidableEq, Repr

/-- The FIRE or LATE-FIRE records of the firing entries with LOG on, in ascending order, all with one outcome (R35). -/
def fireNotes (k : RecordKind) (tb : Vector MatchEntry 16) (fired : List EntryIndex) (r : Request) (data : List Byte)
    (v : Verdict) : List TraceNote :=
  (fired.filter fun i => tb[i].config.log).map fun i =>
    ⟨k, some i, v.hold, some (traced r), data, v.outcome⟩

/-- The data of a FIRE record: the write data of a WRITE of size 1, 2 or 4 (R35, R87). -/
def firedData (r : Request) : List Byte :=
  if r.kind = .write ∧ r.size ≠ .line then r.data else []

end Sys2Proof.Machine
end

