-- ==== Sys2Proof/Machine/Holds.lean ====
section
/-! DEFINITION. The hold controller and the path's side of it (chapter 3; R9 to R12): conflicts, creating or declining a
hold, carrying out a disposition, ending a hold, and the unparking pass. -/

namespace Sys2Proof.Machine

/-! ### Granules and conflicts (R9, R105) -/

/-- The granule of an address: the address divided by 64 (section 1.2). -/
def granule (a : Word) : Nat := a.toNat / 64

/-- Two accesses conflict: the same granule, and at least one of them a write (R9, R105). -/
def conflicts (a : Word) (aw : Bool) (b : Word) (bw : Bool) : Bool :=
  decide (granule a = granule b) && (aw || bw)

/-- Two requests conflict (R9). -/
def requestsConflict (r q : Request) : Bool :=
  conflicts r.addr (decide (r.kind = .write)) q.addr (decide (q.kind = .write))

/-- The slot is PARKED or HELD, the states that block (R9, R105). -/
def Transaction.blocks (x : Transaction) : Bool := decide (x.stage = .parked) || decide (x.stage = .held)

/-- A request at an arrival position conflicts with an earlier-arrived transaction that is PARKED or HELD (R9, R11). -/
def State.blocked (s : State) (position : Nat) (r : Request) : Bool :=
  allTags.any fun t =>
    match s.slot t with
    | none => false
    | some x => x.blocks && decide (x.position < position) && requestsConflict x.request r

/-! ### Ids (R51, R103) -/

/-- The first id from `id` on that is not used, looking at no more than `n` more. -/
def firstUnused (next : Byte → Byte) (used : List Byte) : Nat → Byte → Byte
  | 0, id => id
  | n + 1, id => if id ∈ used then firstUnused next used n (next id) else id

/-- The id after a hold id, wrapping from 255 to 0 (R51). -/
def nextHold (id : Byte) : Byte := id + 1

/-- The id that a new hold record is given (R51). -/
def State.newHoldId (s : State) : Byte :=
  firstUnused nextHold (s.holds.map (·.id)) s.holds.length s.nextHoldId

/-! ### Creating a hold (R52 to R54) -/

/-- What the hold controller answers when a hold is asked for (R53, R54). -/
inductive HoldAnswer
  | created (id : Byte)
  | refused
  | suppressed
  deriving DecidableEq, Repr

/-- Suppressed in no-hold mode; otherwise refused with 4 records in the queue; otherwise created (R53, R54). -/
def State.holdAnswer (s : State) : HoldAnswer :=
  if s.noHold then .suppressed
  else if 4 ≤ s.holds.length then .refused
  else .created s.newHoldId

/-- The hold controller takes a request for a hold: a created record joins the queue with its id and HOLD is posted; a
refusal is counted; a suppression changes nothing (R51, R53, R54, R56, R70). -/
def State.askHold (h : Hold) (s : State) : State :=
  match s.holdAnswer with
  | .created id =>
    State.post .hold id { s with holds := s.holds ++ [{ h with id := id }], nextHoldId := nextHold id }
  | .refused => { s with refusedHolds := min (s.refusedHolds + 1) 65535 }
  | .suppressed => s

/-- The record of a hold at point BEFORE for a transaction (R52). -/
def beforeHold (x : Transaction) (e : EntryIndex) (budget : Nat) (policy : Policy) : Hold :=
  { id := 0, tag := x.request.tag, entry := e, point := .before, kind := x.request.kind, addr := x.request.addr,
    size := x.request.size, priv := x.request.priv,
    data := if x.request.kind = .write then x.request.data else [],
    downstream := none, remaining := budget, policy := policy, extended := 0, amended := false }

/-- The record of a hold at point AFTER for a transaction whose response has returned (R52). -/
def afterHold (x : Transaction) (r : BusResponse) (e : EntryIndex) (budget : Nat) (policy : Policy) : Hold :=
  { id := 0, tag := x.request.tag, entry := e, point := .after, kind := x.request.kind, addr := x.request.addr,
    size := x.request.size, priv := x.request.priv, data := r.data,
    downstream := some r.status, remaining := budget, policy := policy, extended := 0, amended := false }

/-- A HOLD-END record about a hold: its entry, its id where it has one, the transaction, and the data it holds where the
size is 1, 2 or 4 (R59). -/
def Hold.endNote (h : Hold) (id : Option Byte) (o : TraceOutcome) : TraceNote :=
  ⟨.holdEnd, some h.entry, id, some ⟨h.kind, h.size, h.priv, h.addr⟩, if h.size = .line then [] else h.data, o⟩

/-- The HOLD-END record that follows a refusal (R53, R59). -/
def State.refusalNotes (s : State) (h : Hold) : List TraceNote :=
  match s.holdAnswer with
  | .refused => [h.endNote none .holdRefused]
  | .created _ | .suppressed => []

/-- The outcome that a hold asked for gives the records of its event (R35). -/
def State.holdVerdict (s : State) (h : Hold) : Verdict :=
  match s.holdAnswer with
  | .created id => ⟨.held, some id, s.refusalNotes h⟩
  | .refused => ⟨.holdRefused, none, s.refusalNotes h⟩
  | .suppressed => ⟨.holdSuppressed, none, s.refusalNotes h⟩

/-- Where a slot goes when a hold was asked for it (R10, R12, R18). -/
def HoldAnswer.stage (a : HoldAnswer) (yes no : Stage) : Stage :=
  match a with
  | .created _ => yes
  | .refused | .suppressed => no

/-! ### Carrying out a disposition that goes toward memory (R10, R12) -/

/-- A PASS or HOLD disposition is carried out on a slot that does not park, or unparks: to WAITING, or at point BEFORE to
HELD if a hold is created (R10, R12). Within CLEAR-UNIT's event no hold is created (`mayHold` false, R72). -/
def State.carryOut (mayHold : Bool) (x : Transaction) (s : State) : State :=
  match x.disposition with
  | some (.hold e .before b p) =>
    if mayHold then
      (s.askHold (beforeHold x e b p)).putSlot x.request.tag
        { x with stage := s.holdAnswer.stage .held .waiting }
    else s.putSlot x.request.tag { x with stage := .waiting }
  | _ => s.putSlot x.request.tag { x with stage := .waiting }

/-- What the records of an arrival say of a PASS or HOLD disposition carried out at once (R35). -/
def State.carryVerdict (x : Transaction) (s : State) : Verdict :=
  match x.disposition with
  | some (.hold e .before b p) => s.holdVerdict (beforeHold x e b p)
  | some (.hold _ .after _ _) => ⟨.held, none, []⟩
  | _ => ⟨.passed, none, []⟩

/-! ### The unparking pass (R11, R12) -/

/-- The arrival position of a slot; 0 for a FREE one, which no pass looks at. -/
def State.positionOf (s : State) (t : Tag) : Nat :=
  match s.slot t with
  | none => 0
  | some x => x.position

/-- The slot is PARKED. -/
def State.isParked (s : State) (t : Tag) : Bool :=
  match s.slot t with
  | none => false
  | some x => decide (x.stage = .parked)

/-- A tag takes its place in a list of tags by arrival position. -/
def State.insertByPosition (s : State) (t : Tag) : List Tag → List Tag
  | [] => [t]
  | u :: us => if s.positionOf t ≤ s.positionOf u then t :: u :: us else u :: State.insertByPosition s t us

/-- The PARKED slots in arrival order, oldest first (R11). -/
def State.parkedTags (s : State) : List Tag :=
  (allTags.filter s.isParked).foldr s.insertByPosition []

/-- One PARKED slot is looked at, in the state the pass has left the earlier ones in: it is unparked if nothing earlier
blocks it, and the record of a hold refused then is written (R11, R12, R57). -/
def State.unparkOne (mayHold : Bool) (s : State) (t : Tag) : State :=
  match s.slot t with
  | none => s
  | some x =>
    if x.stage = .parked ∧ s.blocked x.position x.request = false then
      (s.carryOut mayHold x).appendAll (if mayHold then (s.carryVerdict x).after else [])
    else s

/-- One pass over the PARKED slots in arrival order (R11). -/
def State.unparkPass (mayHold : Bool) (s : State) : State := s.parkedTags.foldl (State.unparkOne mayHold) s

/-! ### Ending a hold (R57, R58) -/

/-- The slot of an ending hold moves on: to WAITING with the record's request, to ANSWERING with the record's response,
or to ANSWERING with FAULT if the hold fails (R57). -/
def State.deliver (proceeds : Bool) (h : Hold) (s : State) : State :=
  match s.slot h.tag with
  | none => s
  | some x =>
    if proceeds then
      match h.point with
      | .before =>
        s.putSlot h.tag
          { x with
            request := { x.request with data := if h.kind = .write then h.data else x.request.data }
            stage := .waiting }
      | .after => s.answerSlot h.tag x ⟨h.downstream.getD .done, h.data⟩
    else s.answerSlot h.tag x faultResponse

/-- The record leaves the hold queue. -/
def State.removeHold (id : Byte) (s : State) : State :=
  { s with holds := s.holds.filter fun h => decide (h.id ≠ id) }

/-- A hold ends by RELEASE, FAIL, expiry or CLEAR-UNIT, in the order of R57: record removed, slot moved, HOLD-END record,
EXPIRY posted for an expiry, and for a BEFORE hold the unparking pass. -/
def State.endHold (mayHold proceeds expiry : Bool) (o : TraceOutcome) (s : State) (h : Hold) : State :=
  let s1 := (((s.removeHold h.id).deliver proceeds h).append (h.endNote (some h.id) o)).postIf expiry .expiry h.id
  match h.point with
  | .before => s1.unparkPass mayHold
  | .after => s1

/-- A record expires by its policy (R68). -/
def State.expire (s : State) (h : Hold) : State :=
  match h.policy with
  | .proceed => s.endHold true true true .expiredProceeded h
  | .fault => s.endHold true false true .expiredFaulted h

/-- The record with an id, if one is in the queue (R60). -/
def State.findHold (s : State) (id : Byte) : Option Hold := s.holds.find? fun h => decide (h.id = id)

/-- A record in the queue is changed at its place (R49, R64, R66). -/
def State.updateHold (h : Hold) (s : State) : State :=
  { s with holds := s.holds.map fun g => if g.id = h.id then h else g }

/-! ### Requester reset (R23, R71, R144) -/

/-- A slot at the beginning of a requester reset: ISSUED and ORPHAN slots are ORPHAN, every other is FREE (R23). -/
def resetSlot (x : Option Transaction) : Option Transaction :=
  match x with
  | none => none
  | some x =>
    match x.stage with
    | .issued | .orphan => some { x with stage := .orphan }
    | .parked | .held | .waiting | .heldResponse _ | .answering _ => none

/-- The SYSTEM record of a requester reset (R23, R87). -/
def systemNote : TraceNote := ⟨.system, none, none, none, [], .requesterReset⟩

/-- A requester reset begins: one event at the path controller, the hold controller, the trace unit and the link interface
(R23, R71, R144). A request held back at the port stays presented (R5). -/
def State.requesterReset (s : State) : State :=
  let s1 := s.appendAll (systemNote :: s.holds.map fun h => h.endNote (some h.id) .dropped)
  { s1 with
    transit := Vector.ofFn fun t => resetSlot s.transit[t]
    answerQueue := []
    holds := []
    attention := s1.attention.clear .hold }

end Sys2Proof.Machine
end

