-- ==== Sys2Proof/Machine/Due.lean ====
section
/-! DEFINITION. What a tick makes due (R67, R68, R116, R130, R178; log entry 5): the end of the pulse, the budget step, the
expiry of each record whose budget has reached 0, and the gap limit. These follow the tick before anything else is taken:
each is a row of its own, and every other command first completes what is due (`State.settle`). -/

namespace Sys2Proof.Machine

/-- The gap limit in ticks: more than this without a bit slot (R116). -/
def gapLimit : Nat := 2000

/-- A taken frame opens a round: a good broadcast ENUM of length 1 or POLL of length 0 (R119). -/
def roundOf (f : Frame) : Option RoundKind :=
  if f.good ∧ f.dest = 0 then
    match frameKind f.control, f.payload with
    | some .enum, [a] => some (.enum a)
    | some .poll, [] => some .poll
    | _, _ => none
  else none

/-- The round whose ready phase the receiver is in: alone, or waiting in RUNNING for a batch to end (R113, R128, R130). -/
def Receiver.readyRound : Receiver → Option RoundKind
  | .ready k => some k
  | .waiting f => roundOf f
  | .idle | .receiving | .running | .responding _ | .round _ => none

/-- The receiver is in the ready phase of a round (R128, R130). -/
def Receiver.inReadyPhase (r : Receiver) : Bool := r.readyRound.isSome

/-- The receiver takes part in a round or its ready phase (R130). -/
def Receiver.inRound : Receiver → Bool
  | .round _ => true
  | .ready k => Receiver.inReadyPhase (.ready k)
  | .waiting f => Receiver.inReadyPhase (.waiting f)
  | .idle | .receiving | .running | .responding _ => false

/-- The receiver is in RECEIVING. -/
def Receiver.isReceiving : Receiver → Bool
  | .receiving => true
  | .idle | .running | .waiting _ | .responding _ | .ready _ | .round _ => false

/-- The receiver is in RESPONDING. -/
def Receiver.isResponding : Receiver → Bool
  | .responding _ => true
  | .idle | .receiving | .running | .waiting _ | .ready _ | .round _ => false

/-- More than 2 ms without a bit slot (R116). -/
def State.gapPassed (s : State) : Bool := decide (gapLimit < s.gap)

/-- The tick has brought the pulse's remaining time to 0 (R178). -/
def State.pulseDue (s : State) : Bool := decide (s.pulse = some 0)

/-- A record whose remaining budget is 0 expires next; the oldest first (R67, R68). -/
def State.dueHold (s : State) : Option Hold := s.holds.find? fun h => decide (h.remaining = 0)

/-- The gap limit has passed in a state of the receiver that counts it (R116, R130). -/
def State.gapDue (s : State) : Bool :=
  s.gapPassed && (s.receiver.isReceiving || s.receiver.isResponding || s.receiver.inRound)

/-- Nothing that a tick has made due is left. -/
def State.settled (s : State) : Bool :=
  !s.pulseDue && !s.budgetDue && s.holds.all (fun h => decide (h.remaining ≠ 0)) && !s.gapDue

/-! ### The due steps -/

/-- The pulse ends: it is no longer in progress (R178). -/
def State.endPulse (s : State) : State := { s with pulse := if s.pulse = some 0 then none else s.pulse }

/-- The budget step: the remaining budget of every record in the queue falls by one (R67). -/
def State.stepBudgets (s : State) : State :=
  { s with
    budgetDue := false
    holds := if s.budgetDue then s.holds.map (fun h => { h with remaining := h.remaining - 1 }) else s.holds }

/-- The oldest record whose budget has reached 0 expires, with its whole ending (R68). -/
def State.expireNext (s : State) : State :=
  match s.dueHold with
  | none => s
  | some h => s.expire h

/-- Up to `n` expiries, one after another (R68). -/
def State.expireUpTo : Nat → State → State
  | 0, s => s
  | n + 1, s =>
    match s.dueHold with
    | none => s
    | some _ => State.expireUpTo n s.expireNext

/-- Every record whose budget has reached 0 expires; each expiry removes a record, and only the eight parked slots can
add one (R67, R68). -/
def State.expireAll (s : State) : State := State.expireUpTo (s.holds.length + 8) s

/-- A gap in RECEIVING: the partial frame is discarded with no effect (R116). -/
def State.abortFrame (s : State) : State :=
  if s.gapPassed ∧ s.receiver.isReceiving then s.toReceiver .idle else s

/-- A gap in RESPONDING: the response is abandoned, and a FORGET takes its effect (R116, R122, R135). -/
def State.abandonResponse (s : State) : State :=
  if s.gapPassed ∧ s.receiver.isResponding then s.endResponse else s

/-- A gap in a round or its ready phase: the unit's part ends without completion (R130). -/
def State.abandonRound (s : State) : State :=
  if s.gapPassed ∧ s.receiver.inRound then s.toReceiver .idle else s

/-- Everything that is due, in order: the pulse, the budget step, its expiries, the gap limit. -/
def State.settle (s : State) : State :=
  s.endPulse.stepBudgets.expireAll.abortFrame.abandonResponse.abandonRound

/-- A command or an event: while POR_N is asserted the part takes none (R180); otherwise it is taken once what is due has
been completed (log entry 5). -/
def State.event (s : State) (f : State → State) : Result :=
  if s.porAsserted then .next s else .next (f s.settle)

end Sys2Proof.Machine
end

