-- ==== Sys2Proof/Machine/Pins.lean ====
section
/-! DEFINITION. What the outside sees: the outputs as functions of State (R21, R128, R132, R140, R176, R178, R189) and the bar on
acceptance (R5). -/

namespace Sys2Proof.Machine

/-- A requester-reset output pulse is in progress: its remaining time has not reached 0 (R178). -/
def State.pulseInProgress (s : State) : Bool :=
  match s.pulse with
  | some (_ + 1) => true
  | some 0 => false
  | none => false

/-- RQRST_OUT is asserted (R178, R180). -/
def State.rqrstOut (s : State) : Bool := s.pulseInProgress

/-- EVT is active while the event latch is 1 (R176). -/
def State.evt (s : State) : Bool := s.eventLatch

/-- Acceptance at the requester port is barred (R5). -/
def State.barred (s : State) : Bool := s.rqrstIn || s.pulseInProgress || s.porAsserted

/-- The response the requester port presents: that of the oldest slot in the answer queue (R2, R21). -/
def State.presentedResponse (s : State) : Option (Tag × BusResponse) :=
  match s.answerQueue with
  | [] => none
  | t :: _ =>
    match s.slot t with
    | none => none
    | some x =>
      match x.stage with
      | .answering r => some (t, r)
      | .parked | .held | .waiting | .issued | .heldResponse _ | .orphan => none

/-- In each slot of the ready phase the unit pulls LDA low while its executor holds a batch (R128). -/
def State.holdsReadyPhase (s : State) : Bool := s.receiver.inReadyPhase && s.batch.isSome

/-- The bits of a byte as they travel, most significant first (R112). -/
def byteBits (b : Byte) : List Bool :=
  [b.getLsbD 7, b.getLsbD 6, b.getLsbD 5, b.getLsbD 4, b.getLsbD 3, b.getLsbD 2, b.getLsbD 1, b.getLsbD 0]

/-- The bits of a string of bytes as they travel. -/
def bytesBits (bs : List Byte) : List Bool := bs.flatMap byteBits

/-- The six bytes of the identity: family code, serial number (R126, R132). -/
def State.identityBytes (s : State) : List Byte := halfBytes Config.familyCode ++ wordBytes s.serial

/-- The kind byte of a flag in a POLL reply (R189). -/
def Flag.kindByte : Flag → Byte
  | .join => 0x01
  | .hold => 0x02
  | .expiry => 0x03
  | .trace => 0x04

/-- The link address as a byte, 0 for none (R140, R156). -/
def State.addressByte (s : State) : Byte := s.linkAddress.getD 0

/-- The 64 bits of an ENUM reply: identity, revision, check byte (R132, R189). -/
def State.enumReply (s : State) : List Bool :=
  let body := s.identityBytes ++ [s.revision]
  bytesBits (body ++ [crc8 body])

/-- The 28 bits of a POLL reply: four of the address, then kind, detail and check byte (R140, R189). -/
def State.pollReply (s : State) (f : Flag) (d : Byte) : List Bool :=
  (byteBits s.addressByte).drop 4 ++ bytesBits [f.kindByte, d, crc8 [s.addressByte, f.kindByte, d]]

/-- The bits that the unit sends in the round proper, slot 1 first; none when it takes no part (R129). -/
def State.roundBits (s : State) : List Bool :=
  match s.receiver with
  | .round (.enum _) => s.enumReply
  | .round (.poll f d _) => s.pollReply f d
  | .idle | .receiving | .running | .waiting _ | .responding _ | .ready _ => []

/-- The bytes of a response frame: status, length, payload, check byte (R121). -/
def Response.bytes (r : Response) : List Byte := responseCovered r.status r.payload ++ [r.check]

/-- The bits that the unit sends in RESPONDING, slot 1 first: the start slot, in which it pulls LDA low, then the response
bytes; none while it has nothing ready to send (R121). -/
def State.responseBits (s : State) : List Bool :=
  match s.receiver with
  | .responding r => false :: bytesBits r.bytes
  | .idle | .receiving | .running | .waiting _ | .ready _ | .round _ => []

/-- What the unit does with LDA in a bit slot: false where it pulls the line low, true where it releases it. Slots are
numbered from 1 as the response or the round proper begins; outside what it sends the unit releases the line, but for the
ready phase of a round while it holds a batch, and while POR_N is asserted it never pulls it low (R112, R121, R128, R129). -/
def State.ldaOut (s : State) (slot : Nat) : Bool :=
  if s.porAsserted then true
  else if s.holdsReadyPhase then false
  else
    match slot with
    | 0 => true
    | n + 1 => (s.responseBits ++ s.roundBits).getD n true

/-- The unit sends a 1 in a slot of the round proper, numbered from 1 (R128, R129). -/
def State.sendsOne (s : State) (slot : Nat) : Bool :=
  decide (1 ≤ slot) && decide (s.roundBits[slot - 1]? = some true)

end Sys2Proof.Machine
end

