-- ==== Sys2Proof/Machine/Executor.lean ====
section
/-! DEFINITION. The command executor (section 9.1 and 9.2): the batch's next command, the skipping of commands in a group
batch, the room check, the entry of a command's answer, and the end of the batch. -/

namespace Sys2Proof.Machine

/-- The code of a command status (R184). -/
def CmdStatus.code : CmdStatus → Byte
  | .ok => 0x00
  | .badOpcode => 0x01
  | .badOperand => 0x02
  | .badEntry => 0x03
  | .entryBusy => 0x04
  | .noHold => 0x05
  | .badKind => 0x06
  | .extendLimit => 0x07
  | .queueFull => 0x08
  | .hazard => 0x09
  | .noAccess => 0x0A
  | .notDone => 0x0B
  | .noRoom => 0x0C
  | .notRun => 0x0D

/-- The bytes of an entry: opcode echo, status, results (R148). -/
def ResultEntry.bytes (e : ResultEntry) : List Byte := e.echo :: e.status.code :: e.results

/-- The largest entry of a command (R150). -/
def largestEntry : Command → Nat
  | .status => 25
  | .getIdentity => 9
  | .readEntry _ => 29
  | .readOverlay _ c => if 1 ≤ c.toNat ∧ c.toNat ≤ 16 then 2 + 4 * c.toNat else 2
  | .readTrace n => if 1 ≤ n.toNat ∧ n.toNat ≤ 8 then 4 + 20 * n.toNat else 2
  | .listHolds => 11
  | .inspect _ => 31
  | .extend _ _ => 5
  | .accessResult _ => 12
  | .peek _ _ | .poke _ _ _ => 3
  | .writeEntry _ _ | .enableEntry _ | .disableEntry _ | .armEntry _ | .disarmEntry _ | .clearCount _
  | .writeOverlay _ _ _ | .ackTrace _ | .traceControl _ _ _ | .release _ | .amend _ _ _ | .fail _ | .setMode _
  | .eventClear | .resetRequester | .clearUnit | .setGroup _ | .forget | .attentionControl _
  | .badOpcode _ | .cutCommand _ | .surplusCommand _ => 2

/-- The broadcast-allowed set (R123). -/
def broadcastAllowed : Command → Bool
  | .enableEntry _ | .disableEntry _ | .armEntry _ | .disarmEntry _ | .setMode _ | .eventClear
  | .attentionControl _ | .forget | .clearUnit | .resetRequester => true
  | .status | .getIdentity | .readEntry _ | .writeEntry _ _ | .clearCount _ | .readOverlay _ _ | .writeOverlay _ _ _
  | .readTrace _ | .ackTrace _ | .traceControl _ _ _ | .listHolds | .inspect _ | .release _ | .amend _ _ _ | .fail _
  | .extend _ _ | .peek _ _ | .poke _ _ _ | .accessResult _ | .setGroup _
  | .badOpcode _ | .cutCommand _ | .surplusCommand _ => false

/-- The total length of the entries made so far (R150). -/
def Batch.used (b : Batch) : Nat := (b.entries.map fun e => e.bytes.length).sum

/-- The room for the next command: 240 less the entries made and two bytes for each command still to come (R150). -/
def Batch.room (b : Batch) : Nat := 240 - b.used - 2 * (b.commands.length - (b.position + 1))

/-- The command is the batch's next, and nothing stops it or stands before it (R147, R149, R171). -/
def Batch.turn (b : Batch) (c : Command) : Bool :=
  !b.stopped && b.clearing.isNone && decide (b.commands[b.position]? = some c)

/-- In a group or broadcast batch a command outside the broadcast-allowed set is skipped (R123, R152). -/
def Batch.skips (b : Batch) (c : Command) : Bool := !b.addressed && !broadcastAllowed c

/-- In an addressed batch the command's largest entry does not fit in its room (R150). -/
def Batch.lacksRoom (b : Batch) (c : Command) : Bool := b.addressed && decide (b.room < largestEntry c)

/-- The batch after a command has been answered: an addressed batch gains an entry (R148); a status other than OK stops it
unless continue-on-error is set, and NO-ROOM stops it in any case (R149). -/
def Batch.answer (c : Command) (st : CmdStatus) (results : List Byte) (b : Batch) : Batch :=
  { b with
    position := b.position + 1
    entries := if b.addressed then b.entries ++ [⟨c.echo, st, results⟩] else b.entries
    stopped := b.stopped || (decide (st ≠ .ok) && !b.continueOnError) || decide (st = .noRoom)
    clearing := none }

/-- A command's answer is recorded in the batch. -/
def State.answer (c : Command) (st : CmdStatus) (results : List Byte) (s : State) : State :=
  { s with batch := s.batch.map (Batch.answer c st results) }

/-- What a command does at the block that owns the state: the state after it, its status, and its results (R147, R148). -/
structure Reply where
  state : State
  status : CmdStatus
  results : List Byte

/-- A refused command changes nothing and returns no results (R154). -/
def refuse (st : CmdStatus) (s : State) : Reply := ⟨s, st, []⟩

/-- A command answered OK without results. -/
def done (s : State) : Reply := ⟨s, .ok, []⟩

/-- The executor takes the batch's next command, if it is `c` and its turn has come: `c` is skipped, answered NO-ROOM, or
run by `run`, which says what becomes of the state (R123, R147, R149, R150). -/
def State.takeCommand (c : Command) (run : State → State) (s : State) : State :=
  match s.batch with
  | none => s
  | some b =>
    if b.turn c then
      if b.skips c then s.answer c .notRun []
      else if b.lacksRoom c then s.answer c .noRoom []
      else run s
    else s

/-- A command is run and its answer recorded. -/
def State.runBody (c : Command) (body : State → Reply) (s : State) : State :=
  (body s).state.answer c (body s).status (body s).results

/-- A command row: the executor takes `c` as the batch's next command and records the answer of `body`. -/
def State.command (c : Command) (body : State → Reply) (s : State) : Result :=
  s.event (State.takeCommand c (State.runBody c body))

/-! ### The end of a batch (R149, R151, R152) -/

/-- No command of the batch is left to run: all have their entries, or the batch has been stopped (R149, R151). -/
def Batch.over (b : Batch) : Bool :=
  b.clearing.isNone && (b.stopped || decide (b.commands.length ≤ b.position))

/-- The entries of a batch that is over: those made, and NOT-RUN for each command left (R149). -/
def Batch.allEntries (b : Batch) : List ResultEntry :=
  b.entries ++ (b.commands.drop b.position).map fun c => ⟨c.echo, .notRun, []⟩

/-- OK if every entry has status OK, PARTIAL otherwise (R151). -/
def Batch.frameStatus (b : Batch) : FrameStatus :=
  if b.allEntries.all fun e => decide (e.status = .ok) then .ok else .part

/-- The response of an addressed batch (R120, R148, R151). -/
def Batch.response (b : Batch) : Response :=
  buildResponse b.frameStatus (b.allEntries.flatMap ResultEntry.bytes)

/-- The end of an addressed batch: its response is kept, and sent if the receiver still runs it; otherwise a FORGET takes
its effect now (R113, R121, R124, R135, R151). -/
def State.endAddressed (b : Batch) (s : State) : State :=
  let s1 := { s with batch := none, kept := some b.response }
  if s.receiver = .running then s1.respond b.response else s1.forgetNow

/-- The end of a group or broadcast batch: the receiver goes to IDLE if it still runs it, and a FORGET takes its effect
(R123, R136, R152). -/
def State.endGroup (s : State) : State :=
  State.forgetNow { s with batch := none, receiver := if s.receiver = .running then .idle else s.receiver }

/-- The batch ends when no command of it is left to run (R151, R152). -/
def State.endBatch (s : State) : State :=
  match s.batch with
  | none => s
  | some b => if b.over then (if b.addressed then s.endAddressed b else s.endGroup) else s

/-- BATCH_END (R151). -/
def execBatchEnd (s : State) : Result := s.event State.endBatch

/-! ### The three commands that cannot run (R146) -/

/-- BAD_OPCODE: answered BAD-OPCODE, no effect (R146). -/
def execBadOpcode (byte : Byte) (s : State) : Result := s.command (.badOpcode byte) (refuse .badOpcode)

/-- CUT_COMMAND: answered BAD-OPERAND, no effect (R146). -/
def execCutCommand (opcode : Byte) (s : State) : Result := s.command (.cutCommand opcode) (refuse .badOperand)

/-- SURPLUS_COMMAND: answered BAD-OPERAND, no effect (R146). -/
def execSurplusCommand (byte : Byte) (s : State) : Result := s.command (.surplusCommand byte) (refuse .badOperand)

end Sys2Proof.Machine
end

