-- ==== Sys2Proof/Machine/Images.lean ====
section
/-! DEFINITION. The byte images the pod reads (chapter 11): the match entry image (R185), the trace record image (R186), the
hold record and access record images (R187), the status record (R188). -/

namespace Sys2Proof.Machine

/-- A flag as the bit of a given weight. -/
def bit (b : Bool) (weight : Nat) : Nat := if b then weight else 0

/-- A data string in a field of `n` bytes: its bytes first, then 0 (R182). -/
def padTo (n : Nat) (bs : List Byte) : List Byte := (bs ++ List.replicate n 0).take n

/-! ### The match entry image (R185) -/

/-- The privilege filter code (R185). -/
def PrivFilter.code : PrivFilter → Nat
  | .any => 0
  | .priv => 1
  | .user => 2

/-- The action code (R185). -/
def Action.code : Action → Nat
  | .pass => 0
  | .hold => 1
  | .overlay => 2
  | .fault => 3

/-- Byte 3 of the entry image: the arm link, 0 where absent (R158, R185). -/
def linkByte : Option ArmLink → Byte
  | none => 0
  | some l => byteOf (128 + bit (decide (l.effect = .disarm)) 32 + l.target.val)

/-- The mask and value of an entry image, 0 where the data condition is absent (R158, R185). -/
def condBytes : Option DataCond → List Byte
  | none => List.replicate 8 0
  | some c => wordBytes c.mask ++ wordBytes c.value

/-- The 27-byte image of an entry (R158, R185). -/
def MatchEntry.image (e : MatchEntry) : List Byte :=
  [byteOf (bit e.enabled 128 + bit e.armed 64 + bit e.config.log 32 + bit e.config.signal 16 + bit e.config.oneshot 8 +
      bit e.config.cond.isSome 4),
   byteOf (bit e.config.kinds.read 1 + bit e.config.kinds.write 2 + bit e.config.kinds.fetch 4 + 16 * e.config.filter.code),
   byteOf (e.config.action.code + bit (decide (e.config.point = .after)) 4 + bit (decide (e.config.policy = .fault)) 16),
   linkByte e.config.link] ++
  wordBytes e.config.base ++ wordBytes e.config.limit ++ condBytes e.config.cond ++
  natBytes e.config.threshold ++ natBytes e.hits ++ natBytes e.config.budget ++ [byteOf e.config.offset]

/-! ### The trace record image (R186) -/

/-- The kind code of a transaction (R186). -/
def kindCode : Kind → Nat
  | .read => 0
  | .write => 1
  | .fetch => 2

/-- The size code (R186). -/
def sizeCode : Size → Nat
  | .one => 0
  | .two => 1
  | .four => 2
  | .line => 3

/-- The byte of a transaction's kind, size and privilege (R186, R187). -/
def accessByte (k : Kind) (sz : Size) (p : Privilege) : Byte :=
  byteOf (kindCode k + 4 * sizeCode sz + bit (decide (p = .user)) 16)

/-- The record kind code (R186). -/
def RecordKind.code : RecordKind → Byte
  | .fire => 0x01
  | .lateFire => 0x02
  | .holdEnd => 0x03
  | .protocol => 0x04
  | .system => 0x05

/-- The outcome code (R186). -/
def TraceOutcome.code : TraceOutcome → Byte
  | .passed => 0x01
  | .held => 0x02
  | .overlaid => 0x03
  | .faulted => 0x04
  | .overlayStraddle => 0x05
  | .holdRefused => 0x06
  | .holdSuppressed => 0x07
  | .released => 0x08
  | .amendedReleased => 0x09
  | .failed => 0x0A
  | .expiredProceeded => 0x0B
  | .expiredFaulted => 0x0C
  | .dropped => 0x0D
  | .cleared => 0x0E
  | .misaligned => 0x0F
  | .malformed => 0x10
  | .requesterReset => 0x11

/-- The transaction byte of a record, 0 where absent (R182, R186). -/
def TraceNote.accessByte (n : TraceNote) : Byte :=
  match n.access with
  | none => 0
  | some a => Sys2Proof.Machine.accessByte a.kind a.size a.priv

/-- The address of a record, 0 where absent (R182, R186). -/
def TraceNote.addr (n : TraceNote) : Word :=
  match n.access with
  | none => 0
  | some a => a.addr

/-- The index of a record's entry as a byte, 0 where absent (R182, R186). -/
def TraceNote.entryByte (n : TraceNote) : Byte :=
  match n.entry with
  | none => 0
  | some i => byteOf i.val

/-- The 20-byte image of a trace record (R186). -/
def TraceRecord.image (r : TraceRecord) : List Byte :=
  halfBytes r.seq ++ wordBytes r.stamp ++
  [r.note.kind.code,
   byteOf (bit r.note.entry.isSome 1 + bit r.note.hold.isSome 2 + bit r.note.access.isSome 4 +
      bit (decide (r.note.data ≠ [])) 8),
   r.note.entryByte, r.note.hold.getD 0, r.note.accessByte, r.note.outcome.code] ++
  wordBytes r.note.addr ++ padTo 4 r.note.data

/-! ### Hold and access images (R187) -/

/-- The tag-and-point byte (R187). -/
def Hold.tagPoint (h : Hold) : Byte := byteOf (h.tag.val + bit (decide (h.point = .after)) 128)

/-- The state byte of a hold record image (R187). -/
def Hold.stateByte (h : Hold) : Byte :=
  byteOf (bit (decide (h.policy = .fault)) 1 + bit h.amended 2 + bit h.downstream.isSome 4 +
    bit (decide (h.downstream = some .fault)) 8)

/-- The 29-byte image of a hold record (R163, R187). -/
def Hold.image (h : Hold) : List Byte :=
  [h.id, h.tagPoint, byteOf h.entry.val, accessByte h.kind h.size h.priv] ++ wordBytes h.addr ++
  natBytes h.remaining ++ [h.stateByte, byteOf h.extended, byteOf h.data.length] ++ padTo 16 h.data

/-- The state code of an access record image: 2 DONE, 3 FAULTED (R187); no other state is reported (R110). -/
def AccessState.code : AccessState → Nat
  | .waiting => 0
  | .issued => 1
  | .done => 2
  | .faulted => 3

/-- The 10-byte image of an access record: the first size bytes of its data, then 0 (R168, R187). -/
def Access.image (a : Access) : List Byte :=
  [a.id, byteOf (bit (decide (a.kind = .poke)) 1 + 4 * sizeCode a.size + 16 * a.state.code)] ++ wordBytes a.addr ++
  padTo 4 (a.data.take a.size.bytes)

/-! ### The status record (R188) -/

/-- The sum of the weights of the entries that have a property: bit n for entry n (R188). -/
def entrySet (tb : Vector MatchEntry 16) (p : MatchEntry → Bool) : Nat :=
  ((List.finRange 16).map fun i => bit (p tb[i]) (2 ^ i.val)).sum

/-- The attention byte of the status record (R188). -/
def State.attentionByte (s : State) : Byte :=
  byteOf (bit s.attentionEnable 128 + bit s.attention.join 8 + bit s.attention.hold.isSome 4 +
    bit s.attention.expiry.isSome 2 + bit s.attention.trace.isSome 1)

/-- The modes byte of the status record (R188). -/
def State.modesByte (s : State) : Byte :=
  byteOf (bit s.noHold 1 + bit (decide (s.traceMode = .wrap)) 2 + bit s.protocolRecords 4)

/-- The board and injection byte of the status record (R188). -/
def State.boardByte (s : State) : Byte :=
  byteOf (bit s.eventLatch 1 + bit s.rqrstIn 2 + bit s.pulseInProgress 4 + 16 * s.injected.length)

/-- The 23-byte status record, every content read in one event (R155, R156, R188). -/
def State.statusRecord (s : State) : List Byte :=
  [s.addressByte, s.groupAddress.getD 0, s.attentionByte,
   s.attention.hold.getD 0, s.attention.expiry.getD 0, s.attention.trace.getD 0,
   byteOf s.holds.length, s.nextHoldId] ++
  natBytes s.refusedHolds ++ [s.modesByte] ++ natBytes s.log.length ++ natBytes s.threshold ++ natBytes s.lost ++
  [s.boardByte, byteOf s.checkErrors] ++
  natBytes (entrySet s.table (·.enabled)) ++ natBytes (entrySet s.table (·.armed))

end Sys2Proof.Machine
end

