-- ==== Sys2Proof/Machine/Operands.lean ====
section
/-! DEFINITION. The operand forms of the commands: entry indices, the match entry image and the rules of a legal
configuration (R43, R44, R157, R158, R185), and the codes of modes, sizes and groups (R184). -/

namespace Sys2Proof.Machine

/-- An entry index operand, 0-15 (R47, R157). -/
def entryIndex (b : Byte) : Option EntryIndex :=
  if h : b.toNat < 16 then some ⟨b.toNat, h⟩ else none

/-- A byte that is 0x00 or 0x01 (R184: SET-MODE, ATTENTION-CONTROL). -/
def onOff (b : Byte) : Option Bool := if b = 0 then some false else if b = 1 then some true else none

/-- The mode operand of TRACE-CONTROL (R184). -/
def traceModeOf (b : Byte) : Option TraceMode :=
  if b = 0 then some .stop else if b = 1 then some .wrap else none

/-- The size operand of PEEK and POKE (R104, R184). -/
def accessSize (b : Byte) : Option Size :=
  if b = 1 then some .one else if b = 2 then some .two else if b = 4 then some .four else none

/-- The operand of SET-GROUP: none, or 16-23 (R137, R184). -/
def groupOf (b : Byte) : Option (Option Byte) :=
  if b = 0 then some none else if 16 ≤ b.toNat ∧ b.toNat ≤ 23 then some (some b) else none

/-! ### The match entry image (R185) -/

/-- Byte `k` of an image. -/
def imageByte (im : List Byte) (k : Nat) : Byte := im.getD k 0

/-- The two-byte number at byte `k` of an image (R182, R185). -/
def imageHalf (im : List Byte) (k : Nat) : Half := half (imageByte im k) (imageByte im (k + 1))

/-- The four-byte number at byte `k` of an image (R182, R185). -/
def imageWord (im : List Byte) (k : Nat) : Word :=
  word (imageByte im k) (imageByte im (k + 1)) (imageByte im (k + 2)) (imageByte im (k + 3))

/-- No field of the image holds an undefined bit or code; the fields of an absent arm link are not looked at (R158, R182,
R185). -/
def imageDefined (im : List Byte) : Bool :=
  decide (imageByte im 0 &&& 0x03 = 0) &&
  decide (imageByte im 1 &&& 0xC8 = 0) && decide (imageByte im 1 &&& 0x30 ≠ 0x30) &&
  decide (imageByte im 2 &&& 0xE0 = 0) && decide (imageByte im 2 &&& 0x08 = 0) &&
  (!(imageByte im 3).getLsbD 7 || (decide (imageByte im 3 &&& 0x40 = 0) && decide (imageByte im 3 &&& 0x10 = 0)))

/-- The privilege filter of an image whose codes are defined (R185). -/
def imageFilter (im : List Byte) : PrivFilter :=
  if (imageByte im 1).getLsbD 4 then .priv else if (imageByte im 1).getLsbD 5 then .user else .any

/-- The action of an image (R185). -/
def imageAction (im : List Byte) : Action :=
  if (imageByte im 2).getLsbD 1 then (if (imageByte im 2).getLsbD 0 then .fault else .overlay)
  else if (imageByte im 2).getLsbD 0 then .hold else .pass

/-- The arm link of an image, none where it is marked absent (R44, R185). -/
def imageLink (im : List Byte) : Option ArmLink :=
  if (imageByte im 3).getLsbD 7 then
    some ⟨Fin.ofNat 16 ((imageByte im 3).toNat % 16), if (imageByte im 3).getLsbD 5 then .disarm else .arm⟩
  else none

/-- The configuration an image carries, before the fields of other actions are dropped (R185). -/
def imageFields (im : List Byte) : EntryConfig :=
  { base := imageWord im 4
    limit := imageWord im 8
    kinds := ⟨(imageByte im 1).getLsbD 0, (imageByte im 1).getLsbD 1, (imageByte im 1).getLsbD 2⟩
    filter := imageFilter im
    cond := if (imageByte im 0).getLsbD 2 then some ⟨imageWord im 12, imageWord im 16⟩ else none
    threshold := (imageHalf im 20).toNat
    action := imageAction im
    point := if (imageByte im 2).getLsbD 2 then .after else .before
    budget := (imageHalf im 24).toNat
    policy := if (imageByte im 2).getLsbD 4 then .fault else .proceed
    offset := (imageByte im 26).toNat
    log := (imageByte im 0).getLsbD 5
    signal := (imageByte im 0).getLsbD 4
    oneshot := (imageByte im 0).getLsbD 3
    link := imageLink im }

/-- The armed state an image gives (R44, R185). -/
def imageArmed (im : List Byte) : Bool := (imageByte im 0).getLsbD 6

/-- The length of a window in bytes. -/
def EntryConfig.windowLength (c : EntryConfig) : Nat := c.limit.toNat + 1 - c.base.toNat

/-- The rules of a legal configuration, whose breach WRITE-ENTRY and ENABLE-ENTRY refuse with BAD-ENTRY (R43, R45). -/
def EntryConfig.legal (c : EntryConfig) : Bool :=
  decide (c.base.toNat ≤ c.limit.toNat) &&
  (c.kinds.read || c.kinds.write || c.kinds.fetch) &&
  decide (c.threshold ≠ 0) &&
  (decide (c.action ≠ .hold) || (decide (1 ≤ c.budget) && decide (c.budget ≤ 4095))) &&
  (decide (c.action ≠ .overlay) ||
    (decide (c.base.toNat % 4 = 0) && decide (4 * c.offset + c.windowLength ≤ 1024) && c.cond.isNone)) &&
  (decide (c.action ≠ .hold) || decide (c.point ≠ .before) || c.cond.isNone || (!c.kinds.read && !c.kinds.fetch))

/-- The configuration as stored: the fields that do not belong to the entry's action are zero (R44). -/
def EntryConfig.stored (c : EntryConfig) : EntryConfig :=
  { c with
    point := if c.action = .hold then c.point else .before
    budget := if c.action = .hold then c.budget else 0
    policy := if c.action = .hold then c.policy else .proceed
    offset := if c.action = .overlay then c.offset else 0 }

/-- The entry that WRITE-ENTRY leaves: the image's configuration and armed state, disabled, counter 0 (R44). -/
def imageEntry (im : List Byte) : MatchEntry :=
  { config := (imageFields im).stored, enabled := false, armed := imageArmed im, hits := 0 }

end Sys2Proof.Machine
end

