-- ==== Sys2Proof/Machine/AccessCommands.lean ====
section
/-! DEFINITION. The injected access commands (chapter 6, 9.9; R102 to R106, R110, R167, R168). -/

namespace Sys2Proof.Machine

/-- The id after an access id, wrapping from 255 to 1 (R103). -/
def nextAccess (id : Byte) : Byte := if id = 255 then 1 else id + 1

/-- The id that a new injected record is given (R103). -/
def State.newAccessId (s : State) : Byte :=
  firstUnused nextAccess (s.injected.map (·.id)) s.injected.length s.nextAccessId

/-- The access conflicts with a transit slot in PARKED or HELD (R105). -/
def State.hazard (s : State) (addr : Word) (isWrite : Bool) : Bool :=
  allTags.any fun t =>
    match s.slot t with
    | none => false
    | some x => x.blocks && conflicts addr isWrite x.request.addr (decide (x.request.kind = .write))

/-- The record of an accepted PEEK or POKE (R106). -/
def newAccess (k : AccessKind) (addr : Word) (sz : Size) (data : List Byte) (id : Byte) : Access :=
  ⟨id, k, addr, sz, if k = .poke then data else [], .waiting⟩

/-- An accepted PEEK or POKE joins the queue with its id (R103, R106). -/
def State.inject (k : AccessKind) (addr : Word) (sz : Size) (data : List Byte) (s : State) : State :=
  { s with
    injected := s.injected ++ [newAccess k addr sz data s.newAccessId]
    nextAccessId := nextAccess s.newAccessId }

/-- PEEK and POKE: size, alignment, room in the queue, hazard, in this order; then accepted, with the id as the result
(R104, R106, R167). -/
def injectBody (k : AccessKind) (addr : Word) (size : Byte) (data : List Byte) (s : State) : Reply :=
  match accessSize size with
  | none => refuse .badOperand s
  | some sz =>
    if addr.toNat % sz.bytes ≠ 0 then refuse .badOperand s
    else if 2 ≤ s.injected.length then refuse .queueFull s
    else if s.hazard addr (decide (k = .poke)) then refuse .hazard s
    else ⟨s.inject k addr sz data, .ok, [s.newAccessId]⟩

/-- PEEK (R104). -/
def execPeek (addr : Word) (size : Byte) (s : State) : Result :=
  s.command (.peek addr size) (injectBody .peek addr size [])

/-- POKE (R104). -/
def execPoke (addr : Word) (size : Byte) (data : List Byte) (s : State) : Result :=
  s.command (.poke addr size data) (injectBody .poke addr size data)

/-- The injected record with an id, if one is in the queue (R110). -/
def State.findAccess (s : State) (id : Byte) : Option Access := s.injected.find? fun a => decide (a.id = id)

/-- The record leaves the queue (R110). -/
def State.removeAccess (id : Byte) (s : State) : State :=
  { s with injected := s.injected.filter fun a => decide (a.id ≠ id) }

/-- ACCESS-RESULT: NO-ACCESS, NOT-DONE, or the finished record, which is removed (R110, R168). -/
def accessResultBody (id : Byte) (s : State) : Reply :=
  match s.findAccess id with
  | none => refuse .noAccess s
  | some a =>
    match a.state with
    | .waiting | .issued => refuse .notDone s
    | .done | .faulted => ⟨s.removeAccess id, .ok, a.image⟩

/-- ACCESS_RESULT (R110). -/
def execAccessResult (id : Byte) (s : State) : Result := s.command (.accessResult id) (accessResultBody id)

end Sys2Proof.Machine
end

