-- ==== Sys2Proof/Machine/Entries.lean ====
section
/-! DEFINITION. The commands that look at the unit, its match table and its overlay store (9.5 to 9.7; R43 to R48, R80, R81). -/

namespace Sys2Proof.Machine

/-- STATUS returns the status record and changes nothing (R155). -/
def statusBody (s : State) : Reply := ⟨s, .ok, s.statusRecord⟩

/-- STATUS (R155). -/
def execStatus (s : State) : Result := s.command .status statusBody

/-- GET-IDENTITY returns family code, serial number and revision byte (R126, R156). -/
def identityBody (s : State) : Reply := ⟨s, .ok, s.identityBytes ++ [s.revision]⟩

/-- GET_IDENTITY (R126). -/
def execGetIdentity (s : State) : Result := s.command .getIdentity identityBody

/-! ### Match entries (R43 to R47, R157, R158) -/

/-- An entry command acts on the entry its index names, or is answered BAD-OPERAND (R47, R157). -/
def withEntry (index : Byte) (f : EntryIndex → State → Reply) (s : State) : Reply :=
  match entryIndex index with
  | none => refuse .badOperand s
  | some i => f i s

/-- The entry at an index is replaced. -/
def State.setEntry (i : EntryIndex) (e : MatchEntry) (s : State) : State := { s with table := s.table.set i e }

/-- READ-ENTRY returns the entry's image (R47, R158). -/
def readEntryAt (i : EntryIndex) (s : State) : Reply := ⟨s, .ok, s.table[i].image⟩

/-- READ_ENTRY (R47). -/
def execReadEntry (index : Byte) (s : State) : Result := s.command (.readEntry index) (withEntry index readEntryAt)

/-- WRITE-ENTRY: ENTRY-BUSY for an enabled entry; BAD-ENTRY for an image with an undefined field or an illegal
configuration; otherwise the image is stored (R43, R44, R157, R158). -/
def writeEntryAt (image : List Byte) (i : EntryIndex) (s : State) : Reply :=
  if s.table[i].enabled then refuse .entryBusy s
  else if imageDefined image && (imageFields image).legal then done (s.setEntry i (imageEntry image))
  else refuse .badEntry s

/-- WRITE_ENTRY (R43). -/
def execWriteEntry (index : Byte) (image : List Byte) (s : State) : Result :=
  s.command (.writeEntry index image) (withEntry index (writeEntryAt image))

/-- ENABLE-ENTRY: OK for an enabled entry; BAD-ENTRY for an illegal stored configuration; otherwise enabled (R45). -/
def enableEntryAt (i : EntryIndex) (s : State) : Reply :=
  if s.table[i].enabled then done s
  else if s.table[i].config.legal then done (s.setEntry i { s.table[i] with enabled := true })
  else refuse .badEntry s

/-- ENABLE_ENTRY (R45). -/
def execEnableEntry (index : Byte) (s : State) : Result := s.command (.enableEntry index) (withEntry index enableEntryAt)

/-- DISABLE-ENTRY (R45). -/
def disableEntryAt (i : EntryIndex) (s : State) : Reply := done (s.setEntry i { s.table[i] with enabled := false })

/-- DISABLE_ENTRY (R45). -/
def execDisableEntry (index : Byte) (s : State) : Result :=
  s.command (.disableEntry index) (withEntry index disableEntryAt)

/-- ARM-ENTRY and DISARM-ENTRY (R46). -/
def armEntryAt (armed : Bool) (i : EntryIndex) (s : State) : Reply := done { s with table := setArmed i armed s.table }

/-- ARM_ENTRY (R46). -/
def execArmEntry (index : Byte) (s : State) : Result := s.command (.armEntry index) (withEntry index (armEntryAt true))

/-- DISARM_ENTRY (R46). -/
def execDisarmEntry (index : Byte) (s : State) : Result :=
  s.command (.disarmEntry index) (withEntry index (armEntryAt false))

/-- CLEAR-COUNT (R46). -/
def clearCountAt (i : EntryIndex) (s : State) : Reply := done (s.setEntry i { s.table[i] with hits := 0 })

/-- CLEAR_COUNT (R46). -/
def execClearCount (index : Byte) (s : State) : Result := s.command (.clearCount index) (withEntry index clearCountAt)

/-! ### The overlay store (R80, R81, R159) -/

/-- The count is 1-16 and the range does not run past word 255 (R80, R81). -/
def overlayRange (start count : Byte) : Bool :=
  decide (1 ≤ count.toNat) && decide (count.toNat ≤ 16) && decide (start.toNat + count.toNat ≤ 256)

/-- READ-OVERLAY returns words, each as its four bytes from the lowest offset (R80, R182). -/
def readOverlayBody (start count : Byte) (s : State) : Reply :=
  if overlayRange start count then
    ⟨s, .ok, Memory.readRange s.store (4 * start.toNat) (4 * count.toNat)⟩
  else refuse .badOperand s

/-- READ_OVERLAY (R80). -/
def execReadOverlay (start count : Byte) (s : State) : Result :=
  s.command (.readOverlay start count) (readOverlayBody start count)

/-- WRITE-OVERLAY writes whole words in one event (R81, R82). -/
def writeOverlayBody (start count : Byte) (data : List Byte) (s : State) : Reply :=
  if overlayRange start count then
    done { s with store := Memory.writeRange s.store (4 * start.toNat) (data.take (4 * count.toNat)) }
  else refuse .badOperand s

/-- WRITE_OVERLAY (R81). -/
def execWriteOverlay (start count : Byte) (data : List Byte) (s : State) : Result :=
  s.command (.writeOverlay start count data) (writeOverlayBody start count data)

end Sys2Proof.Machine
end

