-- ==== Sys2Proof/Machine/HoldCommands.lean ====
section
/-! DEFINITION. The commands on holds (chapter 3.4, 9.8; R60 to R66, R162 to R166). -/

namespace Sys2Proof.Machine

/-- A hold-bound command acts on the record with its id, or is answered NO-HOLD (R60). -/
def withHold (id : Byte) (f : Hold → State → Reply) (s : State) : Reply :=
  match s.findHold id with
  | none => refuse .noHold s
  | some h => f h s

/-- LIST-HOLDS: the number of records, then id and tag-and-point byte of each, oldest first (R61, R162). -/
def listHoldsBody (s : State) : Reply :=
  ⟨s, .ok, byteOf s.holds.length :: s.holds.flatMap fun h => [h.id, h.tagPoint]⟩

/-- LIST_HOLDS (R162). -/
def execListHolds (s : State) : Result := s.command .listHolds listHoldsBody

/-- INSPECT returns the record whole (R61, R163). -/
def inspectHold (h : Hold) (s : State) : Reply := ⟨s, .ok, h.image⟩

/-- INSPECT (R61). -/
def execInspect (id : Byte) (s : State) : Result := s.command (.inspect id) (withHold id inspectHold)

/-- RELEASE ends the record as a proceeding hold (R58, R62). -/
def releaseHold (h : Hold) (s : State) : Reply :=
  done (s.endHold true true false (if h.amended then .amendedReleased else .released) h)

/-- RELEASE (R62). -/
def execRelease (id : Byte) (s : State) : Result := s.command (.release id) (withHold id releaseHold)

/-- FAIL ends the record as a failing hold (R58, R65). -/
def failHold (h : Hold) (s : State) : Reply := done (s.endHold true false false .failed h)

/-- FAIL (R65). -/
def execFail (id : Byte) (s : State) : Result := s.command (.fail id) (withHold id failHold)

/-- The record's data can be amended: a BEFORE WRITE, or an AFTER READ or FETCH (R63). -/
def Hold.amendable (h : Hold) : Bool :=
  match h.point with
  | .before => decide (h.kind = .write)
  | .after => decide (h.kind ≠ .write)

/-- The record with amended data; at point AFTER its downstream status is DONE (R64). -/
def Hold.amendWith (data : List Byte) (h : Hold) : Hold :=
  { h with
    data := data
    amended := true
    downstream := match h.point with
      | .before => h.downstream
      | .after => some .done }

/-- The write data of a slot's request is replaced (R7, R64). -/
def State.amendSlot (t : Tag) (data : List Byte) (s : State) : State :=
  match s.slot t with
  | none => s
  | some x => s.putSlot t { x with request := { x.request with data := data } }

/-- AMEND takes effect on the record, and for a BEFORE WRITE on the slot's request (R64). -/
def State.amendHold (data : List Byte) (h : Hold) (s : State) : State :=
  match h.point with
  | .before => (s.updateHold (h.amendWith data)).amendSlot h.tag data
  | .after => s.updateHold (h.amendWith data)

/-- The checks of AMEND on a record that exists: BAD-KIND, then the length against the transaction's size (R63). -/
def amendRecord (data : List Byte) (length : Nat) (h : Hold) (s : State) : Reply :=
  if h.amendable = false then refuse .badKind s
  else if length ≠ h.size.bytes then refuse .badOperand s
  else done (s.amendHold data h)

/-- AMEND: the data length first, then the id, then the record (R63, R64, R164). -/
def amendBody (id length : Byte) (data : List Byte) (s : State) : Reply :=
  if length.toNat ∈ [1, 2, 4, 16] then withHold id (amendRecord data length.toNat) s
  else refuse .badOperand s

/-- AMEND (R64). -/
def execAmend (id length : Byte) (data : List Byte) (s : State) : Result :=
  s.command (.amend id length data) (amendBody id length data)

/-- The record with units added to its remaining budget, cut to 4095, and its extend count raised (R66). -/
def Hold.extendBy (units : Nat) (h : Hold) : Hold :=
  { h with remaining := min (h.remaining + units) 4095, extended := h.extended + 1 }

/-- EXTEND on a record that exists: EXTEND-LIMIT at 8; otherwise the record is extended, and the result is its remaining
budget and extend count (R66, R165). -/
def extendRecord (units : Nat) (h : Hold) (s : State) : Reply :=
  if h.extended = 8 then refuse .extendLimit s
  else
    ⟨s.updateHold (h.extendBy units), .ok,
      natBytes (h.extendBy units).remaining ++ [byteOf (h.extendBy units).extended]⟩

/-- EXTEND: the units first, 1-4095, then the id, then the record (R66). -/
def extendBody (id : Byte) (units : Half) (s : State) : Reply :=
  if 1 ≤ units.toNat ∧ units.toNat ≤ 4095 then withHold id (extendRecord units.toNat) s
  else refuse .badOperand s

/-- EXTEND (R66). -/
def execExtend (id : Byte) (units : Half) (s : State) : Result := s.command (.extend id units) (extendBody id units)

/-- SET-MODE sets no-hold mode (R55, R166). -/
def setModeBody (mode : Byte) (s : State) : Reply :=
  match onOff mode with
  | none => refuse .badOperand s
  | some on => done { s with noHold := on }

/-- SET_MODE (R166). -/
def execSetMode (mode : Byte) (s : State) : Result := s.command (.setMode mode) (setModeBody mode)

end Sys2Proof.Machine
end

