-- ==== Sys2Proof/Machine/Link.lean ====
section
/-! DEFINITION. The tool link (chapters 7 and 8): frame starts, frames at their check byte, what a unit does with a frame,
the end of a response, and the rounds. -/

namespace Sys2Proof.Machine

/-! ### What a taken frame calls for (R118, R119, R183) -/

/-- What the unit does with a frame whose check byte it has taken (R118, R119). -/
inductive FrameAction
  | reject
  | command
  | group
  | readback
  | round (k : RoundKind)
  | nothing
  deriving DecidableEq, Repr

/-- The frame is addressed to the unit by its link address, 1-15 (R119). -/
def State.isAddressee (s : State) (d : Byte) : Bool :=
  decide (1 ≤ d.toNat) && decide (d.toNat ≤ 15) && decide (s.linkAddress = some d)

/-- The frame is addressed to the unit's group, 16-23, or to broadcast (R119). -/
def State.inGroup (s : State) (d : Byte) : Bool :=
  decide (d = 0) || (decide (16 ≤ d.toNat) && decide (d.toNat ≤ 23) && decide (s.groupAddress = some d))

/-- What a frame calls for by the link and group addresses the unit holds: REJECT-CHECK for a wrong check byte with the
unit's own address received (R118); otherwise the table of R119. A READBACK's payload is not looked at (log entry 12). -/
def State.frameAction (s : State) (f : Frame) : FrameAction :=
  if f.good = false then (if s.linkAddress = some f.dest then .reject else .nothing)
  else
    match frameKind f.control with
    | some .command => if s.isAddressee f.dest then .command else if s.inGroup f.dest then .group else .nothing
    | some .readback => if s.isAddressee f.dest then .readback else .nothing
    | some .enum | some .poll =>
      match roundOf f with
      | some k => .round k
      | none => .nothing
    | none => .nothing

/-- The batch of a frame's payload, before its first command (R145). -/
def newBatch (addressed : Bool) (f : Frame) : Batch :=
  { commands := dividePayload f.payload, position := 0, continueOnError := continueFlag f.control,
    addressed := addressed, entries := [], stopped := false, clearing := none }

/-- An addressed COMMAND frame is accepted: the kept response is discarded and the batch begins (R120, R124, R145). -/
def State.acceptCommand (f : Frame) (s : State) : State :=
  { s with kept := none, receiver := .running, batch := some (newBatch true f) }

/-- A COMMAND frame to the unit's group or to broadcast begins a batch without a response (R123). -/
def State.acceptGroup (f : Frame) (s : State) : State :=
  { s with receiver := .running, batch := some (newBatch false f) }

/-- READBACK is answered with the kept response, or with EMPTY (R124). -/
def State.readBack (s : State) : State := s.respond (s.kept.getD (buildResponse .empty []))

/-- What the unit does with a taken frame when no batch is in progress (R118 to R124, R128). -/
def State.act (f : Frame) (s : State) : State :=
  match s.frameAction f with
  | .reject => s.respond (buildResponse .rejectCheck [])
  | .command => s.acceptCommand f
  | .group => s.acceptGroup f
  | .readback => s.readBack
  | .round k => s.toReceiver (.ready k)
  | .nothing => s.toReceiver .idle

/-- The check error count after a frame's check byte: it rises by one when the byte is wrong, up to 255 (R118, R125). -/
def State.countCheck (f : Frame) (s : State) : State :=
  { s with checkErrors := if f.good then s.checkErrors else min (s.checkErrors + 1) 255 }

/-- The check byte of a frame is taken in RECEIVING: its last bit slot is now, a wrong byte is counted at once, and the frame
is acted on, or waits in RUNNING for the batch in progress to end (R113, R118, R119, R125). -/
def State.checkTaken (f : Frame) (s : State) : State :=
  if s.receiver.isReceiving then
    let s1 := { s.countCheck f with gap := 0 }
    if s.batch.isSome then s1.toReceiver (.waiting f) else s1.act f
  else s

/-! ### The frame rows. A frame's bytes decide what the unit does; the row names the case (log entry 10). -/

/-- A frame start: RECEIVING from whatever state; a partial or waiting frame is discarded, a response is abandoned and a
FORGET takes its effect, a part in a round ends (R113, R122, R130, R135). -/
def State.startFrame (s : State) : State :=
  { (if s.receiver.isResponding then s.forgetNow else s) with receiver := .receiving, gap := 0 }

/-- FRAME_START (R113). -/
def execFrameStart (s : State) : Result := s.event State.startFrame

/-- A length byte above 240 ends the frame: the receiver goes to IDLE, nothing is counted (R117). -/
def State.overlength (length : Byte) (s : State) : State :=
  if s.receiver.isReceiving ∧ 240 < length.toNat then s.toReceiver .idle else s

/-- OVERLENGTH_FRAME (R117). -/
def execOverlengthFrame (_dest _control length : Byte) (s : State) : Result := s.event (State.overlength length)

/-- BAD_CHECK_FRAME (R118). -/
def execBadCheckFrame (f : Frame) (s : State) : Result := s.event (State.checkTaken f)

/-- COMMAND_FRAME (R120). -/
def execCommandFrame (f : Frame) (s : State) : Result := s.event (State.checkTaken f)

/-- GROUP_COMMAND_FRAME (R123). -/
def execGroupCommandFrame (f : Frame) (s : State) : Result := s.event (State.checkTaken f)

/-- READBACK_FRAME (R124). -/
def execReadbackFrame (f : Frame) (s : State) : Result := s.event (State.checkTaken f)

/-- ENUM_FRAME (R119, R128). -/
def execEnumFrame (f : Frame) (s : State) : Result := s.event (State.checkTaken f)

/-- POLL_FRAME (R119, R128). -/
def execPollFrame (f : Frame) (s : State) : Result := s.event (State.checkTaken f)

/-- FRAME_NOT_ACTED_ON (R119). -/
def execFrameNotActedOn (f : Frame) (s : State) : Result := s.event (State.checkTaken f)

/-- A frame that waited in RUNNING is acted on once no batch is in progress, by the addresses the unit then holds; its
check error has been counted (R113, R118, R119). -/
def State.actDeferred (s : State) : State :=
  match s.receiver with
  | .waiting f => if s.batch.isSome then s else s.act f
  | .idle | .receiving | .running | .responding _ | .ready _ | .round _ => s

/-- DEFERRED_FRAME_ACTION (R113). -/
def execDeferredFrameAction (s : State) : Result := s.event State.actDeferred

/-- The response has been sent in full (R121, R135). -/
def State.responseDone (s : State) : State := if s.receiver.isResponding then s.endResponse else s

/-- RESPONSE_SENT (R121). -/
def execResponseSent (s : State) : Result := s.event State.responseDone

/-! ### Rounds (R128 to R143) -/

/-- The unit's part in a round whose round proper starts now: in an ENUM round when it has no link address and the offered
one is 1-15 (R131); in a POLL round when attention is enabled and a flag is pending, with a copy of the highest-ranked
(R139). -/
def State.roundPart (s : State) (k : RoundKind) : Option RoundPart :=
  match k with
  | .enum a =>
    if s.linkAddress = none ∧ 1 ≤ a.toNat ∧ a.toNat ≤ 15 then some (.enum a) else none
  | .poll =>
    if s.attentionEnable then s.attention.highest.map fun fd => .poll fd.1 fd.2 false else none

/-- The ready phase ends in a slot that reads 1, which no unit holding a batch lets be: a unit that takes part enters
ROUND, any other goes to IDLE; one that waited in RUNNING for its batch goes from there (R128). -/
def State.startRound (s : State) : State :=
  match s.receiver.readyRound with
  | none => s
  | some k =>
    if s.holdsReadyPhase then s
    else
      match s.roundPart k with
      | some p => { s with receiver := .round p, gap := 0 }
      | none => s.toReceiver .idle

/-- ROUND_START (R128). -/
def execRoundStart (s : State) : Result := s.event State.startRound

/-- A unit that completes an ENUM round adopts the offered address, and JOIN is cleared (R133). -/
def State.completeEnum (s : State) : State :=
  match s.receiver with
  | .round (.enum a) =>
    { s with linkAddress := some a, attention := s.attention.clear .join, receiver := .idle }
  | .round (.poll _ _ _) | .idle | .receiving | .running | .waiting _ | .responding _ | .ready _ => s

/-- ENUM_COMPLETE (R133). -/
def execEnumComplete (s : State) : Result := s.event State.completeEnum

/-- A unit that completes a POLL round clears the flag it copied, unless it has been posted since the copy (R142). -/
def State.completePoll (s : State) : State :=
  match s.receiver with
  | .round (.poll f _ again) =>
    { s with attention := if again then s.attention else s.attention.clear f, receiver := .idle }
  | .round (.enum _) | .idle | .receiving | .running | .waiting _ | .responding _ | .ready _ => s

/-- POLL_COMPLETE (R142). -/
def execPollComplete (s : State) : Result := s.event State.completePoll

/-- A unit that sent a 1 in a slot and reads a 0 has lost: it goes to IDLE and nothing else changes (R129). -/
def State.loseRound (slot : Nat) (s : State) : State :=
  if s.sendsOne slot then s.toReceiver .idle else s

/-- ARBITRATION_LOSS (R129). -/
def execArbitrationLoss (slot : Nat) (s : State) : Result := s.event (State.loseRound slot)

end Sys2Proof.Machine
end

