-- ==== Sys2Proof/Machine/Path.lean ====
section
/-! DEFINITION. The memory path (chapters 1, 4, 6): an arrival, the requester's taking of a response, the arbiter's grant,
and a return from memory. -/

namespace Sys2Proof.Machine

/-! ### The protocol check (R4) -/

/-- MALFORMED or MISALIGNED, or neither (R4). -/
def protocolError (r : Request) : Option TraceOutcome :=
  if r.kind = .write ∧ r.size = .line then some .malformed
  else if r.addr.toNat % r.size.bytes ≠ 0 then some .misaligned
  else none

/-- The PROTOCOL record: no entry, no hold, the write data of a MISALIGNED WRITE (R87). -/
def protocolNote (r : Request) (o : TraceOutcome) : TraceNote :=
  ⟨.protocol, none, none, some (traced r), (firedData r), o⟩

/-! ### The overlay store on the path (R75 to R78) -/

/-- What the overlay store does with an access: serves it, refuses a straddle, or finds no byte behind it. -/
inductive Service
  | served (response : BusResponse) (store : List Host.Cell)
  | straddle
  | outside
  deriving DecidableEq, Repr

/-- The store byte offset that corresponds to a path address (R75). -/
def overlayByte (base : Word) (offset : Nat) (a : Word) : Nat := 4 * offset + (a.toNat - base.toNat)

/-- Every byte the transaction touches lies between the window base and limit (R75). -/
def whollyInside (base limit : Word) (r : Request) : Bool :=
  decide (base.toNat ≤ r.addr.toNat) && decide (r.addr.toNat + r.size.bytes - 1 ≤ limit.toNat)

/-- The overlay store serves an access wholly inside the deciding entry's window: a READ or FETCH gets the bytes of the
store (R76), a WRITE puts its data there (R77); any other is refused (R78). -/
def serveOverlay (base limit : Word) (offset : Nat) (r : Request) (store : List Host.Cell) : Service :=
  if whollyInside base limit r then
    if overlayByte base offset r.addr + r.size.bytes ≤ 1024 then
      if r.kind = .write then
        .served ⟨.done, []⟩ (Memory.writeRange store (overlayByte base offset r.addr) (r.data.take r.size.bytes))
      else .served ⟨.done, Memory.readRange store (overlayByte base offset r.addr) r.size.bytes⟩ store
    else .outside
  else .straddle

/-! ### Arrival (R5 to R10) -/

/-- The record of an accepted request: the next arrival position and a disposition if it has one (R6, R7). -/
def State.newTransaction (s : State) (r : Request) (d : Option Disposition) (st : Stage) : Transaction :=
  ⟨s.nextPosition, r, d, st⟩

/-- The request has been accepted: it has taken its place in the arrival order and is presented no longer (R5, R6). -/
def State.accepted (s : State) : State := { s with presented := none, nextPosition := s.nextPosition + 1 }

/-- An arrival that fails the protocol check: ANSWERING with FAULT, and a PROTOCOL record if the flag is on (R4, R93). -/
def State.arriveWrong (r : Request) (o : TraceOutcome) (s : State) : State :=
  (s.accepted.answerSlot r.tag (s.newTransaction r none .waiting) faultResponse).appendAll
    (if s.protocolRecords then [protocolNote r o] else [])

/-- An arrival whose disposition is PASS or HOLD: it parks behind an earlier conflicting PARKED or HELD transaction, or its
disposition is carried out at once (R9, R10). -/
def State.enter (x : Transaction) (s : State) : State :=
  if s.blocked x.position x.request then s.putSlot x.request.tag { x with stage := .parked }
  else s.carryOut true x

/-- What the FIRE records of such an arrival say (R35). -/
def State.enterVerdict (x : Transaction) (s : State) : Verdict :=
  if s.blocked x.position x.request then
    match x.disposition with
    | some (.hold _ _ _ _) => ⟨.held, none, []⟩
    | _ => ⟨.passed, none, []⟩
  else s.carryVerdict x

/-- An arrival that passes the protocol check: early evaluation, its effects, the disposition carried out, then the
records of the event (R6, R8 to R10, R33 to R35, R94). A write to an OVERLAY window reaches the store within its arrival, so
one that arrives before CLEAR-UNIT's event at the match table reaches the store before it is cleared, where R84 and R172
leave both orders open: the model's choice (log entry 22). -/
def State.arriveRight (r : Request) (s : State) : Result :=
  let fired := firedEntries s.table false r r.data
  let d := earlyDisposition s.table fired
  let x := s.newTransaction r (some d) .waiting
  let s1 := s.accepted.evaluated false r r.data
  let finish := fun (v : Verdict) (s2 : State) =>
    Host.Outcome.next (s2.appendAll (fireNotes .fire s.table fired r (firedData r) v ++ v.after))
  match d with
  | .fault _ => finish ⟨.faulted, none, []⟩ (s1.answerSlot r.tag x faultResponse)
  | .overlay _ base limit offset =>
    match serveOverlay base limit offset r s.store with
    | .served resp store => finish ⟨.overlaid, none, []⟩ (State.answerSlot r.tag x resp { s1 with store := store })
    | .straddle => finish ⟨.overlayStraddle, none, []⟩ (s1.answerSlot r.tag x faultResponse)
    | .outside => .fault .overlayAddress
  | .pass => finish (s1.enterVerdict x) (s1.enter x)
  | .hold _ _ _ _ => finish (s1.enterVerdict x) (s1.enter x)

/-- An arrival, taken whole (R6). -/
def State.arrive (r : Request) (s : State) : Result :=
  match protocolError r with
  | some o => .next (s.arriveWrong r o)
  | none => s.arriveRight r

/-- The port is free to present the request: nothing else stays presented (R5; log entry 9). -/
def State.portFree (s : State) (r : Request) : Bool := s.presented.isNone || decide (s.presented = some r)

/-- The request is accepted: its tag's slot is FREE and acceptance is not barred (R5). -/
def State.accepts (s : State) (r : Request) : Bool := (s.slot r.tag).isNone && !s.barred

/-- A request that is not accepted stays presented; behind an earlier one that stays presented it does not reach the port
(R5). -/
def State.leavePresented (r : Request) (s : State) : State :=
  { s with presented := if s.portFree r then some r else s.presented }

/-- A request is presented at the port, with what is due completed: accepted, or left presented (R5, R6). -/
def State.present (r : Request) (s : State) : Result :=
  if s.portFree r && s.accepts r then s.arrive r else .next (s.leavePresented r)

/-- REQUEST_ARRIVAL (R6). While POR_N is asserted acceptance is barred and the request stays presented (R5). -/
def execRequestArrival (r : Request) (s : State) : Result :=
  if s.porAsserted then .next (s.leavePresented r) else s.settle.present r

/-! ### The answer queue (R20, R21) -/

/-- The requester takes the presented response: the oldest slot leaves the queue and goes to FREE (R21). -/
def State.takeResponse (s : State) : State :=
  match s.answerQueue with
  | [] => s
  | t :: q => { s with transit := s.transit.set t none, answerQueue := q }

/-- RESPONSE_TAKEN (R21). -/
def execResponseTaken (s : State) : Result := s.event State.takeResponse

/-! ### The arbiter (R13 to R15, R108) -/

/-- The slot is WAITING. -/
def State.isWaiting (s : State) (t : Tag) : Bool :=
  match s.slot t with
  | none => false
  | some x => decide (x.stage = .waiting)

/-- Of two WAITING slots, the one with the smaller arrival position. -/
def State.earlier (s : State) (best : Option Tag) (t : Tag) : Option Tag :=
  match best with
  | none => some t
  | some b => if s.positionOf b ≤ s.positionOf t then some b else some t

/-- The path candidate: the WAITING slot with the smallest arrival position (R14). -/
def State.pathCandidate (s : State) : Option Tag := (allTags.filter s.isWaiting).foldl s.earlier none

/-- The injected candidate: the oldest injected record in WAITING (R14, R106). -/
def State.injectedCandidate (s : State) : Option Access := s.injected.find? fun a => decide (a.state = .waiting)

/-- The tags that no outstanding access of the issue list carries (R3). -/
def State.unusedMemTags (s : State) : List Tag :=
  allTags.filter fun t => s.issueList.all fun e => decide (e.sent.tag ≠ t)

/-- The tag of the next request sent to memory: one of those not in use, the manual does not say which (R3; log entry 4). -/
def State.memTag (s : State) : Tag :=
  s.unusedMemTags.getD (Config.memoryTagChoice s.freeCount % s.unusedMemTags.length) 0

/-- The request that goes down for a slot: kind, address, size and privilege unchanged, the write data as it then stands
(R1). -/
def requestDown (r : Request) (t : Tag) : MemRequest :=
  ⟨t, r.kind, r.addr, r.size, r.priv, if r.kind = .write then r.data else []⟩

/-- The request that goes down for an injected record: READ or WRITE, privilege PRIV, a POKE's data (R108). -/
def Access.down (a : Access) (t : Tag) : MemRequest :=
  ⟨t, if a.kind = .poke then .write else .read, a.addr, a.size, .priv, if a.kind = .poke then a.data else []⟩

/-- A path grant: the slot goes to ISSUED and its request goes down (R14); the fairness count rises while an injected
record waits and is set to 0 otherwise (R15). -/
def State.grantPath (t : Tag) (x : Transaction) (s : State) : State :=
  { s with
    transit := s.transit.set t (some { x with stage := .issued })
    issueList := s.issueList ++ [⟨.slot t, requestDown x.request s.memTag⟩]
    fairness := if s.injectedCandidate.isSome then s.fairness + 1 else 0
    freeCount := s.freeCount + 1 }

/-- A change of the injected record with an id, at its place. -/
def State.updateAccess (id : Byte) (f : Access → Access) (s : State) : State :=
  { s with injected := s.injected.map fun a => if a.id = id then f a else a }

/-- An injected grant: the record goes to ISSUED and its request goes down (R108); the fairness count is set to 0 (R15). -/
def State.grantInjected (a : Access) (s : State) : State :=
  { s.updateAccess a.id (fun b => { b with state := .issued }) with
    issueList := s.issueList ++ [⟨.injected a.id, a.down s.memTag⟩]
    fairness := 0
    freeCount := s.freeCount + 1 }

/-- The path candidate is granted the port. -/
def State.grantTo (t : Tag) (s : State) : State :=
  match s.slot t with
  | none => s
  | some x => s.grantPath t x

/-- One grant, with fewer than 8 accesses outstanding and a candidate waiting: to the path candidate, except that it goes
to the injected candidate when both wait and the fairness count stands at 4 (R14). -/
def State.grant (s : State) : State :=
  if s.issueList.length < 8 then
    match s.pathCandidate, s.injectedCandidate with
    | some t, none => s.grantTo t
    | some t, some a => if s.fairness = 4 then s.grantInjected a else s.grantTo t
    | none, some a => s.grantInjected a
    | none, none => s
  else s

/-- MEMORY_PORT_GRANT (R14). -/
def execMemoryPortGrant (s : State) : Result := s.event State.grant

/-! ### Returns (R16 to R19, R40, R41, R109) -/

/-- The return as an access of a size takes it: a READ's or FETCH's data are as long as the access (R2, R109). Of a longer
return, which R16 can charge to the access after a power-on reset, the first bytes are taken; the bytes that a shorter one
does not have are free values (log entry 13). -/
def fitReturn (grant : Nat) (sz : Size) (ret : MemReturn) : MemReturn :=
  { ret with data := (List.range sz.bytes).map fun k => ret.data.getD k (Config.missingReturnByte grant k) }

/-- The number of the grant that the oldest access of the issue list was given (log entry 13). -/
def State.headGrant (s : State) : Nat := s.freeCount - s.issueList.length

/-- A return that is late-evaluated: of a READ or FETCH, with status DONE (R17, R40). -/
def lateEvaluated (x : Transaction) (ret : MemReturn) : Bool :=
  decide (x.request.kind ≠ .write) && decide (ret.status = .done)

/-- The response as memory gave it: its status, and the data of a READ or FETCH with status DONE (R17). -/
def returnedResponse (x : Transaction) (ret : MemReturn) : BusResponse :=
  ⟨ret.status, if lateEvaluated x ret then ret.data else []⟩

/-- The entries that fire in late evaluation; none for a return that is not late-evaluated (R40). -/
def State.lateFired (x : Transaction) (ret : MemReturn) (s : State) : List EntryIndex :=
  if lateEvaluated x ret then firedEntries s.table true x.request ret.data else []

/-- The match table and latch after a return (R17, R40). -/
def State.lateState (x : Transaction) (ret : MemReturn) (s : State) : State :=
  if lateEvaluated x ret then s.evaluated true x.request ret.data else s

/-- The late result (R18, R41). -/
inductive LateResult
  | fault
  | hold (entry : EntryIndex) (budget : Nat) (policy : Policy)
  | answer
  deriving DecidableEq, Repr

/-- The hold that the early disposition asks for at return (R18, R41). -/
def earlyAfterHold (d : Option Disposition) : Option (EntryIndex × Nat × Policy) :=
  match d with
  | some (.hold e .after b p) => some (e, b, p)
  | _ => none

/-- The late result: FAULT of the late deciding entry; else the hold of an early HOLD at AFTER, with the early entry's
copies; else the hold of a late HOLD entry, with its values now; else answer (R18, R41). -/
def State.lateResult (x : Transaction) (ret : MemReturn) (s : State) : LateResult :=
  let decider := decidingEntry s.table (s.lateFired x ret)
  if decider.any fun i => decide (s.table[i].config.action = .fault) then .fault
  else
    match earlyAfterHold x.disposition with
    | some (e, b, p) => .hold e b p
    | none =>
      match decider with
      | none => .answer
      | some i =>
        if s.table[i].config.action = .hold then .hold i s.table[i].config.budget s.table[i].config.policy
        else .answer

/-- A response asked to be held at point AFTER: HELD-RESPONSE if a record is created, ANSWERING otherwise (R18). -/
def State.holdResponse (t : Tag) (x : Transaction) (r : BusResponse) (h : Hold) (s : State) : State :=
  match s.holdAnswer with
  | .created _ => (s.askHold h).putSlot t { x with stage := .heldResponse r }
  | .refused | .suppressed => (s.askHold h).answerSlot t x r

/-- A return that belongs to a slot in ISSUED (R17, R18, R40 to R42, R94). -/
def State.returnToSlot (t : Tag) (x : Transaction) (ret : MemReturn) (s : State) : State :=
  let r := returnedResponse x ret
  let s1 := s.lateState x ret
  let finish := fun (v : Verdict) (s2 : State) =>
    s2.appendAll (fireNotes .lateFire s.table (s.lateFired x ret) x.request r.data v ++ v.after)
  match s.lateResult x ret with
  | .fault => finish ⟨.faulted, none, []⟩ (s1.answerSlot t x faultResponse)
  | .hold e b p => finish (s1.holdVerdict (afterHold x r e b p)) (s1.holdResponse t x r (afterHold x r e b p))
  | .answer => finish ⟨.passed, none, []⟩ (s1.answerSlot t x r)

/-- An injected record whose return has come: DONE, with the data read for a PEEK, or FAULTED (R109). -/
def Access.finish (ret : MemReturn) (a : Access) : Access :=
  match ret.status with
  | .fault => { a with state := .faulted }
  | .done => { a with state := .done, data := if a.kind = .peek then ret.data else a.data }

/-- The return is handed to the injection unit (R109). -/
def State.returnToAccess (grant : Nat) (id : Byte) (ret : MemReturn) (s : State) : State :=
  s.updateAccess id fun a => a.finish (fitReturn grant a.size ret)

/-- The access at the head of the issue list has its return: a slot in ISSUED, an ORPHAN, which is discarded (R19), or an
injected record (R16). -/
def State.deliverReturn (grant : Nat) (target : IssueTarget) (ret : MemReturn) (s : State) : State :=
  match target with
  | .injected id => s.returnToAccess grant id ret
  | .slot t =>
    match s.slot t with
    | none => s
    | some x =>
      match x.stage with
      | .issued => s.returnToSlot t x (fitReturn grant x.request.size ret)
      | .orphan => s.freeSlot t
      | .parked | .held | .waiting | .heldResponse _ | .answering _ => s

/-- A return belongs to the oldest entry of the issue list, which it removes; with the list empty it is discarded (R16). -/
def State.takeReturn (ret : MemReturn) (s : State) : State :=
  match s.issueList with
  | [] => s
  | e :: rest => State.deliverReturn s.headGrant e.target ret { s with issueList := rest }

/-- MEMORY_RETURN (R16). -/
def execMemoryReturn (ret : MemReturn) (s : State) : Result := s.event (State.takeReturn ret)

end Sys2Proof.Machine
end

