-- ==== Sys2Proof/Machine/TraceCommands.lean ====
section
/-! DEFINITION. The trace commands (9.7; R95 to R99, R160, R161). -/

namespace Sys2Proof.Machine

/-- READ-TRACE returns a header and copies of the oldest records, and changes nothing (R95, R160). -/
def readTraceBody (count : Byte) (s : State) : Reply :=
  if 1 ≤ count.toNat ∧ count.toNat ≤ 8 then
    ⟨s, .ok, byteOf (min count.toNat s.log.length) :: fillByte s.log.length ::
      (s.log.take count.toNat).flatMap TraceRecord.image⟩
  else refuse .badOperand s

/-- READ_TRACE (R95). -/
def execReadTrace (count : Byte) (s : State) : Result := s.command (.readTrace count) (readTraceBody count)

/-- ACK-TRACE removes the oldest records, if there are as many as it names (R96). -/
def ackTraceBody (count : Half) (s : State) : Reply :=
  if 1 ≤ count.toNat ∧ count.toNat ≤ 256 ∧ count.toNat ≤ s.log.length then
    done { s with log := s.log.drop count.toNat }
  else refuse .badOperand s

/-- ACK_TRACE (R96). -/
def execAckTrace (count : Half) (s : State) : Result := s.command (.ackTrace count) (ackTraceBody count)

/-- TRACE-CONTROL takes effect: mode, threshold and protocol-records flag as given, and the two requests (R99, R184). -/
def State.setTrace (m : TraceMode) (threshold : Half) (flags : Byte) (s : State) : State :=
  { s with
    traceMode := m
    threshold := threshold.toNat
    protocolRecords := flags.getLsbD 0
    log := if flags.getLsbD 1 then [] else s.log
    lost := if flags.getLsbD 2 then 0 else s.lost }

/-- TRACE-CONTROL: BAD-OPERAND for an undefined mode, a threshold above 256 or an undefined flag bit (R99, R161). -/
def traceControlBody (mode : Byte) (threshold : Half) (flags : Byte) (s : State) : Reply :=
  match traceModeOf mode with
  | none => refuse .badOperand s
  | some m =>
    if threshold.toNat ≤ 256 ∧ flags &&& 0xF8 = 0 then done (s.setTrace m threshold flags) else refuse .badOperand s

/-- TRACE_CONTROL (R99). -/
def execTraceControl (mode : Byte) (threshold : Half) (flags : Byte) (s : State) : Result :=
  s.command (.traceControl mode threshold flags) (traceControlBody mode threshold flags)

end Sys2Proof.Machine
end

