-- ==== Sys2Proof/Machine/Board.lean ====
section
/-! DEFINITION. The tick and what it makes due, and the reset lines (chapter 10; R67, R68, R116, R130). -/

namespace Sys2Proof.Machine

/-! ### The tick (R175) -/

/-- A tick: the tick count rises; the divider counts it and a tenth one makes a budget step due (R67); a pulse in progress
loses one tick (R178); the time since the last bit slot is measured (R116, R130; log entry 6). -/
def State.countTick (bitSlot : Bool) (s : State) : State :=
  { s with
    tickCount := s.tickCount + 1
    divider := if s.divider = 9 then 0 else s.divider + 1
    budgetDue := s.budgetDue || decide (s.divider = 9)
    pulse := s.pulse.map (· - 1)
    gap := if bitSlot then 1 else min (s.gap + 1) (gapLimit + 1) }

/-- TICK (R175). -/
def execTick (bitSlot : Bool) (s : State) : Result := s.event (State.countTick bitSlot)

/-- A step that a tick has made due, taken as a row of its own (log entry 5). -/
def State.dueEvent (s : State) (f : State → State) : Result := if s.porAsserted then .next s else .next (f s)

/-- BUDGET_STEP: the budget step a tenth tick has made due (R67). -/
def execBudgetStep (s : State) : Result := s.dueEvent State.stepBudgets

/-- HOLD_EXPIRY: the oldest record whose remaining budget is 0 expires (R68). -/
def execHoldExpiry (s : State) : Result := s.dueEvent State.expireNext

/-- PULSE_END: the pulse whose remaining time has reached 0 ends (R178). -/
def execPulseEnd (s : State) : Result := s.dueEvent State.endPulse

/-- GAP_ABORT (R116). -/
def execGapAbort (s : State) : Result := s.dueEvent State.abortFrame

/-- RESPONSE_GAP_ABANDON (R116, R122). -/
def execResponseGapAbandon (s : State) : Result := s.dueEvent State.abandonResponse

/-- ROUND_GAP_ABANDON (R130). -/
def execRoundGapAbandon (s : State) : Result := s.dueEvent State.abandonRound

/-! ### Requester reset lines (R177 to R179) -/

/-- RQRST_IN becomes asserted and a requester reset begins; a line already asserted does not become so again (R177). -/
def State.assertRqrstIn (s : State) : State :=
  if s.rqrstIn then s else { s.requesterReset with rqrstIn := true }

/-- RQRST_IN becomes deasserted; no reset action is taken (R177). -/
def State.deassertRqrstIn (s : State) : State := { s with rqrstIn := false }

/-- RQRST_IN_ASSERTED (R177). -/
def execRqrstInAsserted (s : State) : Result := s.event State.assertRqrstIn

/-- RQRST_IN_DEASSERTED (R177). -/
def execRqrstInDeasserted (s : State) : Result := s.event State.deassertRqrstIn

/-- The requester-reset output pulse is started, which begins a requester reset, or restarted, which does not (R170, R178). -/
def State.startPulse (s : State) : State :=
  if s.pulseInProgress then { s with pulse := some 100 } else { s.requesterReset with pulse := some 100 }

/-! ### Power-on reset (R180, R181) -/

/-- Every block at its power-on values. What is not the part's stands: the level of RQRST_IN, the request that the requester
keeps presented (R5), the identity given at manufacture, the queue of commands, the model's counter (R180; log entry 8). -/
def State.powerOn (s : State) : State :=
  { State.reset with
    porAsserted := s.porAsserted, rqrstIn := s.rqrstIn, presented := s.presented, serial := s.serial,
    revision := s.revision, freeCount := s.freeCount, pending := s.pending }

/-- POR_N_ASSERTED (R180). -/
def execPorNAsserted (s : State) : Result := .next { s.powerOn with porAsserted := true }

/-- POR_N_RELEASED: every block starts from its power-on values, with RQRST_IN at the level found (R181). -/
def execPorNReleased (rqrstIn : Bool) (s : State) : Result :=
  if s.porAsserted then .next { s.powerOn with porAsserted := false, rqrstIn := rqrstIn } else .next s

/-- MEMORY_RETURN_DURING_POR: a response memory returns while POR_N is asserted is not taken (R180). -/
def execMemoryReturnDuringPor (_r : MemReturn) (s : State) : Result := .next s

end Sys2Proof.Machine
end

