-- ==== Sys2Proof/Machine/UnitCommands.lean ====
section
/-! DEFINITION. The link commands, the board commands and CLEAR-UNIT (9.10, 9.11; R135 to R137, R143, R169 to R173). -/

namespace Sys2Proof.Machine

/-! ### Link commands (R135 to R137, R143) -/

/-- SET-GROUP (R137). -/
def setGroupBody (group : Byte) (s : State) : Reply :=
  match groupOf group with
  | none => refuse .badOperand s
  | some g => done { s with groupAddress := g }

/-- SET_GROUP (R137). -/
def execSetGroup (group : Byte) (s : State) : Result := s.command (.setGroup group) (setGroupBody group)

/-- FORGET is answered OK; its effect waits for the end of the response or of the batch (R135, R136). -/
def forgetBody (s : State) : Reply := done { s with forgetPending := true }

/-- FORGET (R135). -/
def execForget (s : State) : Result := s.command .forget forgetBody

/-- ATTENTION-CONTROL (R143). -/
def attentionControlBody (enable : Byte) (s : State) : Reply :=
  match onOff enable with
  | none => refuse .badOperand s
  | some on => done { s with attentionEnable := on }

/-- ATTENTION_CONTROL (R143). -/
def execAttentionControl (enable : Byte) (s : State) : Result :=
  s.command (.attentionControl enable) (attentionControlBody enable)

/-! ### Board commands (R169, R170) -/

/-- EVENT-CLEAR (R169). -/
def eventClearBody (s : State) : Reply := done { s with eventLatch := false }

/-- EVENT_CLEAR (R169). -/
def execEventClear (s : State) : Result := s.command .eventClear eventClearBody

/-- RESET-REQUESTER (R170, R178). -/
def resetRequesterBody (s : State) : Reply := done s.startPulse

/-- RESET_REQUESTER (R170). -/
def execResetRequester (s : State) : Result := s.command .resetRequester resetRequesterBody

/-! ### CLEAR-UNIT (R171, R172): five events of one command -/

/-- The next event of CLEAR-UNIT in the batch. -/
def State.setClearing (c : Option ClearStep) (s : State) : State :=
  { s with batch := s.batch.map fun b => { b with clearing := c } }

/-- The first event, at the trace unit: its power-on values (R101, R171). -/
def State.clearTrace (s : State) : State :=
  { s with
    log := [], nextSeq := 0, lost := 0, traceMode := .stop, threshold := 0, protocolRecords := false }

/-- CLEAR_UNIT: the command begins with its event at the trace unit (R171). -/
def execClearUnit (s : State) : Result :=
  s.event (State.takeCommand .clearUnit fun s => s.clearTrace.setClearing (some .holds))

/-- The event of CLEAR-UNIT that comes next in the batch. -/
def State.clearingStep (s : State) : Option ClearStep :=
  match s.batch with
  | none => none
  | some b => b.clearing

/-- A later event of CLEAR-UNIT, taken when it comes next (R171). -/
def State.clearEvent (c : ClearStep) (f : State → State) (s : State) : Result :=
  s.event fun s => if s.clearingStep = some c then f s else s

/-- The second event, at the hold controller: every record ends as CLEARED with its unparking pass, no hold is created, and
the count and the mode return to their power-on values (R72). -/
def State.clearHolds (s : State) : State :=
  { s.holds.foldl (State.endHold false true false .cleared) s with refusedHolds := 0, noHold := false }

/-- CLEAR_UNIT_HOLDS (R72). -/
def execClearUnitHolds (s : State) : Result :=
  s.clearEvent .holds fun s => s.clearHolds.setClearing (some .matchTable)

/-- The third event, at the match unit: every entry at its power-on values (R48). -/
def State.clearTable (s : State) : State := { s with table := Vector.replicate 16 MatchEntry.powerOn }

/-- CLEAR_UNIT_MATCH_TABLE (R48). -/
def execClearUnitMatchTable (s : State) : Result :=
  s.clearEvent .matchTable fun s => s.clearTable.setClearing (some .overlay)

/-- CLEAR_UNIT_OVERLAY: the fourth event, every byte of the store 0 (R84). -/
def execClearUnitOverlay (s : State) : Result :=
  s.clearEvent .overlay fun s => State.setClearing (some .eventLatch) { s with store := [] }

/-- CLEAR_UNIT_EVENT_LATCH: the fifth event, the event latch 0; CLEAR-UNIT is then answered OK (R171). -/
def execClearUnitEventLatch (s : State) : Result :=
  s.clearEvent .eventLatch fun s => State.answer .clearUnit .ok [] { s with eventLatch := false }

end Sys2Proof.Machine
end

