-- ==== Sys2Proof/Machine/Dispatch.lean ====
section
/-! DEFINITION. One arm for each constructor of Instr: the effect of a command or event on everything but the queue. -/

namespace Sys2Proof.Machine

def exec (i : Instr) (s : State) : Host.Outcome State Fault Refusal :=
  match i with
  | .requestArrival r => Sys2Proof.Machine.execRequestArrival r s
  | .responseTaken => Sys2Proof.Machine.execResponseTaken s
  | .memoryPortGrant => Sys2Proof.Machine.execMemoryPortGrant s
  | .memoryReturn r => Sys2Proof.Machine.execMemoryReturn r s
  | .tick bitSlot => Sys2Proof.Machine.execTick bitSlot s
  | .budgetStep => Sys2Proof.Machine.execBudgetStep s
  | .holdExpiry => Sys2Proof.Machine.execHoldExpiry s
  | .rqrstInAsserted => Sys2Proof.Machine.execRqrstInAsserted s
  | .rqrstInDeasserted => Sys2Proof.Machine.execRqrstInDeasserted s
  | .pulseEnd => Sys2Proof.Machine.execPulseEnd s
  | .porNAsserted => Sys2Proof.Machine.execPorNAsserted s
  | .porNReleased rqrstIn => Sys2Proof.Machine.execPorNReleased rqrstIn s
  | .memoryReturnDuringPor r => Sys2Proof.Machine.execMemoryReturnDuringPor r s
  | .frameStart => Sys2Proof.Machine.execFrameStart s
  | .gapAbort => Sys2Proof.Machine.execGapAbort s
  | .responseGapAbandon => Sys2Proof.Machine.execResponseGapAbandon s
  | .roundGapAbandon => Sys2Proof.Machine.execRoundGapAbandon s
  | .overlengthFrame dest control length => Sys2Proof.Machine.execOverlengthFrame dest control length s
  | .badCheckFrame f => Sys2Proof.Machine.execBadCheckFrame f s
  | .commandFrame f => Sys2Proof.Machine.execCommandFrame f s
  | .groupCommandFrame f => Sys2Proof.Machine.execGroupCommandFrame f s
  | .readbackFrame f => Sys2Proof.Machine.execReadbackFrame f s
  | .enumFrame f => Sys2Proof.Machine.execEnumFrame f s
  | .pollFrame f => Sys2Proof.Machine.execPollFrame f s
  | .frameNotActedOn f => Sys2Proof.Machine.execFrameNotActedOn f s
  | .deferredFrameAction => Sys2Proof.Machine.execDeferredFrameAction s
  | .batchEnd => Sys2Proof.Machine.execBatchEnd s
  | .responseSent => Sys2Proof.Machine.execResponseSent s
  | .roundStart => Sys2Proof.Machine.execRoundStart s
  | .enumComplete => Sys2Proof.Machine.execEnumComplete s
  | .pollComplete => Sys2Proof.Machine.execPollComplete s
  | .status => Sys2Proof.Machine.execStatus s
  | .getIdentity => Sys2Proof.Machine.execGetIdentity s
  | .readEntry index => Sys2Proof.Machine.execReadEntry index s
  | .writeEntry index image => Sys2Proof.Machine.execWriteEntry index image s
  | .enableEntry index => Sys2Proof.Machine.execEnableEntry index s
  | .disableEntry index => Sys2Proof.Machine.execDisableEntry index s
  | .armEntry index => Sys2Proof.Machine.execArmEntry index s
  | .disarmEntry index => Sys2Proof.Machine.execDisarmEntry index s
  | .clearCount index => Sys2Proof.Machine.execClearCount index s
  | .readOverlay start count => Sys2Proof.Machine.execReadOverlay start count s
  | .writeOverlay start count data => Sys2Proof.Machine.execWriteOverlay start count data s
  | .readTrace count => Sys2Proof.Machine.execReadTrace count s
  | .ackTrace count => Sys2Proof.Machine.execAckTrace count s
  | .traceControl mode threshold flags => Sys2Proof.Machine.execTraceControl mode threshold flags s
  | .listHolds => Sys2Proof.Machine.execListHolds s
  | .inspect id => Sys2Proof.Machine.execInspect id s
  | .release id => Sys2Proof.Machine.execRelease id s
  | .amend id length data => Sys2Proof.Machine.execAmend id length data s
  | .fail id => Sys2Proof.Machine.execFail id s
  | .extend id units => Sys2Proof.Machine.execExtend id units s
  | .setMode mode => Sys2Proof.Machine.execSetMode mode s
  | .peek addr size => Sys2Proof.Machine.execPeek addr size s
  | .poke addr size data => Sys2Proof.Machine.execPoke addr size data s
  | .accessResult id => Sys2Proof.Machine.execAccessResult id s
  | .eventClear => Sys2Proof.Machine.execEventClear s
  | .resetRequester => Sys2Proof.Machine.execResetRequester s
  | .clearUnit => Sys2Proof.Machine.execClearUnit s
  | .clearUnitHolds => Sys2Proof.Machine.execClearUnitHolds s
  | .clearUnitMatchTable => Sys2Proof.Machine.execClearUnitMatchTable s
  | .clearUnitOverlay => Sys2Proof.Machine.execClearUnitOverlay s
  | .clearUnitEventLatch => Sys2Proof.Machine.execClearUnitEventLatch s
  | .setGroup group => Sys2Proof.Machine.execSetGroup group s
  | .forget => Sys2Proof.Machine.execForget s
  | .attentionControl enable => Sys2Proof.Machine.execAttentionControl enable s
  | .badOpcode byte => Sys2Proof.Machine.execBadOpcode byte s
  | .cutCommand opcode => Sys2Proof.Machine.execCutCommand opcode s
  | .surplusCommand byte => Sys2Proof.Machine.execSurplusCommand byte s
  | .arbitrationLoss slot => Sys2Proof.Machine.execArbitrationLoss slot s

end Sys2Proof.Machine
end

