-- ==== Sys2Proof/WellFormed.lean ====
section
/-! DEFINITION. Which terms of `Instr` are commands and events as the manual describes them: data as long as the access
says (R1, R2), frames that their row's name fits (R114, R117 to R119), operands as long as division makes them (R145). -/

namespace Sys2Proof

/-- The write data of a request is as long as its size; a READ or FETCH carries none (R1). A LINE WRITE is MALFORMED (R4)
and its data is not looked at. -/
def Request.wellFormed (r : Request) : Bool :=
  match r.kind with
  | .write => r.size = .line || r.data.length = r.size.bytes
  | .read | .fetch => r.data = []

/-- A return with status FAULT carries no data; returned data is 1, 2, 4 or 16 bytes (R2, R3). -/
def MemReturn.wellFormed (r : MemReturn) : Bool :=
  match r.status with
  | .fault => r.data = []
  | .done => r.data.length ∈ [0, 1, 2, 4, 16]

/-- A frame's payload is at most 240 bytes (R114, R117). -/
def Frame.sized (f : Frame) : Bool := f.payload.length ≤ 240

/-- A destination that is a link address, 1-15 (R114). -/
def isLinkAddress (d : Byte) : Bool := 1 ≤ d.toNat && d.toNat ≤ 15

/-- A destination that is a group address, 16-23 (R114). -/
def isGroupAddress (d : Byte) : Bool := 16 ≤ d.toNat && d.toNat ≤ 23

/-- The byte names a command (R184). -/
def namesCommand (b : Byte) : Bool := takeCommand b [] ≠ .unknown

/-- The operand strings of a command are as long as division makes them (R145), and the commands of R146 are what their
names say. -/
def Command.wellFormed : Command → Bool
  | .writeEntry _ im => im.length = 27
  | .writeOverlay _ c d => d.length = 4 * c.toNat
  | .amend _ l d => d.length = l.toNat
  | .poke _ sz d => d.length = pokeDataLength sz
  | .badOpcode b => !namesCommand b
  | .cutCommand b => namesCommand b && takeCommand b [] = .cut
  | .surplusCommand _ => true
  | .status | .getIdentity | .readEntry _ | .enableEntry _ | .disableEntry _ | .armEntry _ | .disarmEntry _
  | .clearCount _ | .readOverlay _ _ | .readTrace _ | .ackTrace _ | .traceControl _ _ _ | .listHolds | .inspect _
  | .release _ | .fail _ | .extend _ _ | .setMode _ | .peek _ _ | .accessResult _ | .eventClear | .resetRequester
  | .clearUnit | .setGroup _ | .forget | .attentionControl _ => true

/-- The batch command that a command row of `Instr` is the taking of; none for the other rows and for the later events
of CLEAR-UNIT. -/
def Instr.command? : Instr → Option Command
  | .status => some .status
  | .getIdentity => some .getIdentity
  | .readEntry i => some (.readEntry i)
  | .writeEntry i im => some (.writeEntry i im)
  | .enableEntry i => some (.enableEntry i)
  | .disableEntry i => some (.disableEntry i)
  | .armEntry i => some (.armEntry i)
  | .disarmEntry i => some (.disarmEntry i)
  | .clearCount i => some (.clearCount i)
  | .readOverlay st c => some (.readOverlay st c)
  | .writeOverlay st c d => some (.writeOverlay st c d)
  | .readTrace n => some (.readTrace n)
  | .ackTrace n => some (.ackTrace n)
  | .traceControl m t f => some (.traceControl m t f)
  | .listHolds => some .listHolds
  | .inspect h => some (.inspect h)
  | .release h => some (.release h)
  | .amend h l d => some (.amend h l d)
  | .fail h => some (.fail h)
  | .extend h u => some (.extend h u)
  | .setMode m => some (.setMode m)
  | .peek a sz => some (.peek a sz)
  | .poke a sz d => some (.poke a sz d)
  | .accessResult i => some (.accessResult i)
  | .eventClear => some .eventClear
  | .resetRequester => some .resetRequester
  | .clearUnit => some .clearUnit
  | .setGroup g => some (.setGroup g)
  | .forget => some .forget
  | .attentionControl e => some (.attentionControl e)
  | .badOpcode b => some (.badOpcode b)
  | .cutCommand b => some (.cutCommand b)
  | .surplusCommand b => some (.surplusCommand b)
  | .requestArrival _ | .responseTaken | .memoryPortGrant | .memoryReturn _ | .tick _ | .budgetStep | .holdExpiry
  | .rqrstInAsserted | .rqrstInDeasserted | .pulseEnd | .porNAsserted | .porNReleased _ | .memoryReturnDuringPor _
  | .frameStart | .gapAbort | .responseGapAbandon | .roundGapAbandon | .overlengthFrame _ _ _ | .badCheckFrame _
  | .commandFrame _ | .groupCommandFrame _ | .readbackFrame _ | .enumFrame _ | .pollFrame _ | .frameNotActedOn _
  | .deferredFrameAction | .batchEnd | .responseSent | .roundStart | .enumComplete | .pollComplete | .clearUnitHolds
  | .clearUnitMatchTable | .clearUnitOverlay | .clearUnitEventLatch | .arbitrationLoss _ => none

/-- A command or event as the manual describes it: its data and its frame fit its row. -/
def Instr.wellFormed (i : Instr) : Bool :=
  match i.command? with
  | some c => c.wellFormed
  | none =>
    match i with
    | .requestArrival r => r.wellFormed
    | .memoryReturn r | .memoryReturnDuringPor r => r.wellFormed
    | .overlengthFrame _ _ l => 240 < l.toNat
    | .badCheckFrame f => f.sized && !f.good
    | .commandFrame f => f.sized && f.good && frameKind f.control = some .command && isLinkAddress f.dest
    | .groupCommandFrame f =>
      f.sized && f.good && frameKind f.control = some .command && (isGroupAddress f.dest || f.dest = 0)
    | .readbackFrame f => f.sized && f.good && frameKind f.control = some .readback && isLinkAddress f.dest
    | .enumFrame f => f.good && frameKind f.control = some .enum && f.dest = 0 && f.payload.length = 1
    | .pollFrame f => f.good && frameKind f.control = some .poll && f.dest = 0 && f.payload.length = 0
    | .frameNotActedOn f => f.sized && f.good
    | .arbitrationLoss n => 1 ≤ n && n ≤ 64
    | _ => true

end Sys2Proof
end

