-- ==== Sys2Proof/Safety.lean ====
section
/-! DEFINITION. The properties of states that the statements are made with: what is ready to take a command, what each block
keeps true of its own state, and what the blocks keep true together; and the layouts that the pod reads, byte by byte. -/

namespace Sys2Proof.Machine

/-! ### Readiness -/

/-- POR_N is not asserted and nothing that a tick has made due is left: the next command or event is taken as it stands
(R180; log entry 5). -/
abbrev State.ready (s : State) : Prop := s.porAsserted = false ∧ s.settled = true

/-- The executor's next command is `c` and it runs: the part is ready, `c` is the next command of the batch `b`, nothing has
stopped the batch, `c` is not skipped, and it has room (R123, R147, R149, R150). -/
abbrev State.runs (s : State) (b : Batch) (c : Command) : Prop :=
  s.ready ∧ s.batch = some b ∧ b.turn c = true ∧ b.skips c = false ∧ b.lacksRoom c = false

/-- The state after a command that was answered, with the answer recorded in the batch. -/
def State.answered (s : State) (b : Batch) (c : Command) (st : CmdStatus) (results : List Byte) : State :=
  { s with batch := some (b.answer c st results) }

/-- The request at the port is accepted in this event: nothing else stays presented, its tag's slot is FREE, acceptance is
not barred (R5). -/
abbrev State.admits (s : State) (r : Request) : Prop :=
  s.ready ∧ s.portFree r = true ∧ s.slot r.tag = none ∧ s.barred = false

/-- The unit waits for a round to start: in its ready phase, or in RUNNING with the round's frame (R113, R128). -/
abbrev State.awaitsRound (s : State) (k : RoundKind) : Prop :=
  s.receiver = .ready k ∨ ∃ f, s.receiver = .waiting f ∧ roundOf f = some k

/-! ### The layouts, byte by byte (R168, R182, R185 to R188)

A code is the place of a value in the list of the values that a table of the manual gives, in the order of their codes. -/

/-- Byte `k` of a string as a number, 0 past its end. -/
def byteAt (bs : List Byte) (k : Nat) : Nat := (bs.getD k 0).toNat

/-- The two-byte number at byte `k`, most significant byte first (R182). -/
def numberAt2 (bs : List Byte) (k : Nat) : Nat := 256 * byteAt bs k + byteAt bs (k + 1)

/-- The four-byte number at byte `k`, most significant byte first (R182). -/
def numberAt4 (bs : List Byte) (k : Nat) : Nat := 65536 * numberAt2 bs k + numberAt2 bs (k + 2)

/-- The byte of a transaction's kind, size and privilege (byte 10 of R186's table). -/
def transactionNumber (k : Kind) (z : Size) (p : Privilege) : Nat :=
  [Kind.read, .write, .fetch].idxOf k + 4 * [Size.one, .two, .four, .line].idxOf z + 16 * [Privilege.priv, .user].idxOf p

/-- The image that READ-ENTRY returns of an entry (R185). -/
structure EntryImageOf (e : MatchEntry) (im : List Byte) : Prop where
  length : im.length = 27
  flags : byteAt im 0 = 128 * e.enabled.toNat + 64 * e.armed.toNat + 32 * e.config.log.toNat +
    16 * e.config.signal.toNat + 8 * e.config.oneshot.toNat + 4 * e.config.cond.isSome.toNat
  kinds : byteAt im 1 = e.config.kinds.read.toNat + 2 * e.config.kinds.write.toNat + 4 * e.config.kinds.fetch.toNat +
    16 * [PrivFilter.any, .priv, .user].idxOf e.config.filter
  action : byteAt im 2 = [Action.pass, .hold, .overlay, .fault].idxOf e.config.action +
    4 * [Point.before, .after].idxOf e.config.point + 16 * [Policy.proceed, .fault].idxOf e.config.policy
  linkAbsent : e.config.link = none → byteAt im 3 = 0
  linkPresent : ∀ l, e.config.link = some l →
    byteAt im 3 = 128 + 32 * [ArmEffect.arm, .disarm].idxOf l.effect + l.target.val
  base : numberAt4 im 4 = e.config.base.toNat
  limit : numberAt4 im 8 = e.config.limit.toNat
  condAbsent : e.config.cond = none → ∀ k, 12 ≤ k → k < 20 → byteAt im k = 0
  condPresent : ∀ c, e.config.cond = some c → numberAt4 im 12 = c.mask.toNat ∧ numberAt4 im 16 = c.value.toNat
  threshold : numberAt2 im 20 = e.config.threshold % 65536
  hits : numberAt2 im 22 = e.hits % 65536
  budget : numberAt2 im 24 = e.config.budget % 65536
  offset : byteAt im 26 = e.config.offset % 256

/-- The configuration whose fields the image of a WRITE-ENTRY carries (R158, R185). -/
structure FieldsOfImage (im : List Byte) (c : EntryConfig) : Prop where
  log : c.log = (byteAt im 0).testBit 5
  signal : c.signal = (byteAt im 0).testBit 4
  oneshot : c.oneshot = (byteAt im 0).testBit 3
  kinds : c.kinds = ⟨(byteAt im 1).testBit 0, (byteAt im 1).testBit 1, (byteAt im 1).testBit 2⟩
  filter : byteAt im 1 / 16 % 4 < 3 → [PrivFilter.any, .priv, .user].idxOf c.filter = byteAt im 1 / 16 % 4
  action : [Action.pass, .hold, .overlay, .fault].idxOf c.action = byteAt im 2 % 4
  point : byteAt im 2 / 4 % 4 < 2 → [Point.before, .after].idxOf c.point = byteAt im 2 / 4 % 4
  policy : [Policy.proceed, .fault].idxOf c.policy = byteAt im 2 / 16 % 2
  linkAbsent : byteAt im 3 < 128 → c.link = none
  linkPresent : 128 ≤ byteAt im 3 → byteAt im 3 / 32 % 4 < 2 → byteAt im 3 % 32 < 16 →
    ∃ l, c.link = some l ∧ [ArmEffect.arm, .disarm].idxOf l.effect = byteAt im 3 / 32 % 4 ∧
      l.target.val = byteAt im 3 % 32
  base : c.base.toNat = numberAt4 im 4
  limit : c.limit.toNat = numberAt4 im 8
  condAbsent : (byteAt im 0).testBit 2 = false → c.cond = none
  condPresent : (byteAt im 0).testBit 2 = true →
    ∃ d, c.cond = some d ∧ d.mask.toNat = numberAt4 im 12 ∧ d.value.toNat = numberAt4 im 16
  threshold : c.threshold = numberAt2 im 20
  budget : c.budget = numberAt2 im 24
  offset : c.offset = byteAt im 26

/-- The image of a trace record (R186). -/
structure TraceImageOf (r : TraceRecord) (im : List Byte) : Prop where
  length : im.length = 20
  seq : numberAt2 im 0 = r.seq.toNat
  stamp : numberAt4 im 2 = r.stamp.toNat
  kind : byteAt im 6 = 1 + [RecordKind.fire, .lateFire, .holdEnd, .protocol, .system].idxOf r.note.kind
  presence : byteAt im 7 = r.note.entry.isSome.toNat + 2 * r.note.hold.isSome.toNat + 4 * r.note.access.isSome.toNat +
    8 * (decide (r.note.data ≠ [])).toNat
  entryAbsent : r.note.entry = none → byteAt im 8 = 0
  entryPresent : ∀ i, r.note.entry = some i → byteAt im 8 = i.val
  hold : byteAt im 9 = (r.note.hold.getD 0).toNat
  accessAbsent : r.note.access = none → byteAt im 10 = 0 ∧ numberAt4 im 12 = 0
  accessPresent : ∀ a, r.note.access = some a →
    byteAt im 10 = transactionNumber a.kind a.size a.priv ∧ numberAt4 im 12 = a.addr.toNat
  outcome : byteAt im 11 = 1 + [TraceOutcome.passed, .held, .overlaid, .faulted, .overlayStraddle, .holdRefused,
    .holdSuppressed, .released, .amendedReleased, .failed, .expiredProceeded, .expiredFaulted, .dropped, .cleared,
    .misaligned, .malformed, .requesterReset].idxOf r.note.outcome
  data : ∀ k, k < 4 → byteAt im (16 + k) = byteAt r.note.data k

/-- The image of a hold record (R187). -/
structure HoldImageOf (h : Hold) (im : List Byte) : Prop where
  length : im.length = 29
  id : byteAt im 0 = h.id.toNat
  tagPoint : byteAt im 1 = h.tag.val + 128 * [Point.before, .after].idxOf h.point
  entry : byteAt im 2 = h.entry.val
  access : byteAt im 3 = transactionNumber h.kind h.size h.priv
  addr : numberAt4 im 4 = h.addr.toNat
  remaining : numberAt2 im 8 = h.remaining % 65536
  state : byteAt im 10 = [Policy.proceed, .fault].idxOf h.policy + 2 * h.amended.toNat + 4 * h.downstream.isSome.toNat +
    8 * (decide (h.downstream = some .fault)).toNat
  extended : byteAt im 11 = h.extended % 256
  dataLength : byteAt im 12 = h.data.length % 256
  data : ∀ k, k < 16 → byteAt im (13 + k) = byteAt h.data k

/-- The image of a finished access record (R168, R187). -/
structure AccessImageOf (a : Access) (im : List Byte) : Prop where
  length : im.length = 10
  id : byteAt im 0 = a.id.toNat
  kind : a.state = .done ∨ a.state = .faulted → byteAt im 1 = [AccessKind.peek, .poke].idxOf a.kind +
    4 * [Size.one, .two, .four, .line].idxOf a.size + 16 * if a.state = .done then 2 else 3
  addr : numberAt4 im 2 = a.addr.toNat
  data : ∀ k, k < 4 → byteAt im (6 + k) = if k < a.size.bytes then byteAt a.data k else 0

/-- The status record (R155, R188). -/
structure StatusRecordOf (s : State) (r : List Byte) : Prop where
  length : r.length = 23
  link : byteAt r 0 = (s.linkAddress.getD 0).toNat
  group : byteAt r 1 = (s.groupAddress.getD 0).toNat
  attention : byteAt r 2 = 128 * s.attentionEnable.toNat + 8 * s.attention.join.toNat +
    4 * s.attention.hold.isSome.toNat + 2 * s.attention.expiry.isSome.toNat + s.attention.trace.isSome.toNat
  holdDetail : byteAt r 3 = (s.attention.hold.getD 0).toNat
  expiryDetail : byteAt r 4 = (s.attention.expiry.getD 0).toNat
  traceDetail : byteAt r 5 = (s.attention.trace.getD 0).toNat
  holdsInUse : byteAt r 6 = s.holds.length % 256
  nextHoldId : byteAt r 7 = s.nextHoldId.toNat
  refusedHolds : numberAt2 r 8 = s.refusedHolds % 65536
  modes : byteAt r 10 = s.noHold.toNat + 2 * [TraceMode.stop, .wrap].idxOf s.traceMode + 4 * s.protocolRecords.toNat
  fill : numberAt2 r 11 = s.log.length % 65536
  threshold : numberAt2 r 13 = s.threshold % 65536
  lost : numberAt2 r 15 = s.lost % 65536
  board : s.injected.length ≤ 2 → byteAt r 17 = s.eventLatch.toNat + 2 * s.rqrstIn.toNat +
    4 * (decide (s.pulse ≠ none ∧ s.pulse ≠ some 0)).toNat + 16 * s.injected.length
  checkErrors : byteAt r 18 = s.checkErrors % 256
  enabled : ∀ i : EntryIndex, (numberAt2 r 19).testBit i.val = s.table[i].enabled
  armed : ∀ i : EntryIndex, (numberAt2 r 21).testBit i.val = s.table[i].armed

/-! ### What each block keeps -/

/-- The lists and counts named here are within the room the manual gives them, and the next access id is not 0 (R13, R15, R49,
R56, R67, R85, R92, R98, R102, R103, R116, R125, R178). -/
structure State.Bounded (s : State) : Prop where
  holds : s.holds.length ≤ 4
  refusedHolds : s.refusedHolds ≤ 65535
  divider : s.divider ≤ 9
  log : s.log.length ≤ 256
  lost : s.lost ≤ 65535
  threshold : s.threshold ≤ 256
  injected : s.injected.length ≤ 2
  accessId : s.nextAccessId ≠ 0
  issueList : s.issueList.length ≤ 8
  fairness : s.fairness ≤ 4
  checkErrors : s.checkErrors ≤ 255
  pulse : ∀ n, s.pulse = some n → n ≤ 100
  gap : s.gap ≤ gapLimit + 1

/-- The overlay store is in its canonical form and lists only its own 1024 bytes (R74). -/
structure State.StoreSound (s : State) : Prop where
  canonical : Memory.wf s.store = true
  inside : Memory.inStore s.store = true

/-- Every entry's hit counter is less than its threshold, and every enabled entry's configuration is legal (R32, R43, R45). -/
structure State.TableSound (s : State) : Prop where
  hits : ∀ i : EntryIndex, s.table[i].hits < s.table[i].config.threshold
  legal : ∀ i : EntryIndex, s.table[i].enabled = true → s.table[i].config.legal = true

/-- The records of the log are numbered without a gap, and the next number follows the newest (R88). -/
def State.LogNumbered (s : State) : Prop :=
  ∀ (k : Nat) (r : TraceRecord), s.log[k]? = some r → r.seq + BitVec.ofNat 16 (s.log.length - k) = s.nextSeq

/-- No remaining budget exceeds 4095 and no extend count 8 (R66), nor can a hold that the table or a kept disposition asks
for begin above 4095 (R26, R52). -/
structure State.BudgetsBounded (s : State) : Prop where
  remaining : ∀ h ∈ s.holds, h.remaining ≤ 4095
  extended : ∀ h ∈ s.holds, h.extended ≤ 8
  kept : ∀ t x e p b q, s.slot t = some x → x.disposition = some (.hold e p b q) → b ≤ 4095
  configured : ∀ i : EntryIndex, s.table[i].config.budget ≤ 4095

/-- The accesses of the issue list carry different tags (R3). -/
def State.MemTagsDistinct (s : State) : Prop := (s.issueList.map fun e => e.sent.tag).Nodup

/-! ### What the path keeps (R7, R13, R20, R49) -/

/-- The slot of a tag is in a stage with a property. -/
def State.slotIn (s : State) (t : Tag) (p : Stage → Prop) : Prop := ∃ x, s.slot t = some x ∧ p x.stage

/-- The transit table agrees with the answer queue, the hold queue, the issue list and the injected access queue: each lists
exactly the slots or records in the states that the manual gives it, each once (R13, R20, R49, R51, R103). -/
structure State.PathSound (s : State) : Prop where
  tags : ∀ t x, s.slot t = some x → x.request.tag = t
  answerNodup : s.answerQueue.Nodup
  answering : ∀ t, t ∈ s.answerQueue ↔ s.slotIn t fun st => ∃ r, st = .answering r
  holdIds : (s.holds.map (·.id)).Nodup
  holdTags : (s.holds.map (·.tag)).Nodup
  before : ∀ t, (∃ h ∈ s.holds, h.tag = t ∧ h.point = .before) ↔ s.slotIn t fun st => st = .held
  after : ∀ t, (∃ h ∈ s.holds, h.tag = t ∧ h.point = .after) ↔ s.slotIn t fun st => ∃ r, st = .heldResponse r
  issueNodup : (s.issueList.map (·.target)).Nodup
  issued : ∀ t, IssueTarget.slot t ∈ s.issueList.map (·.target) ↔ s.slotIn t fun st => st = .issued ∨ st = .orphan
  accessIds : (s.injected.map (·.id)).Nodup
  injected : ∀ id, IssueTarget.injected id ∈ s.issueList.map (·.target) ↔ ∃ a ∈ s.injected, a.id = id ∧ a.state = .issued

/-- No transaction that waits for memory or is held before it has an earlier conflicting transaction PARKED or HELD, and every
parked one has (R9, R11, R12). -/
structure State.ParkingSound (s : State) : Prop where
  order : ∀ t x, s.slot t = some x → x.position < s.nextPosition
  clear : ∀ t x, s.slot t = some x → x.stage = .waiting ∨ x.stage = .held → s.blocked x.position x.request = false
  parked : ∀ t x, s.slot t = some x → x.stage = .parked → s.blocked x.position x.request = true

/-! ### What the link interface and the executor keep -/

/-- The link and group addresses are in range, a unit without a link address has no group address, and the batch, the
receiver and a FORGET that waits agree (R113, R119, R127, R131, R135, R137). -/
structure State.LinkSound (s : State) : Prop where
  link : ∀ a, s.linkAddress = some a → 1 ≤ a.toNat ∧ a.toNat ≤ 15
  group : ∀ g, s.groupAddress = some g → 16 ≤ g.toNat ∧ g.toNat ≤ 23
  groupNeedsLink : s.groupAddress.isSome = true → s.linkAddress.isSome = true
  offered : ∀ a, s.receiver = .round (.enum a) → 1 ≤ a.toNat ∧ a.toNat ≤ 15
  running : s.receiver = .running → s.batch.isSome = true
  busy : s.batch.isSome = true →
    s.receiver.isResponding = false ∧ (∀ k, s.receiver ≠ .ready k) ∧ ∀ p, s.receiver ≠ .round p
  addressed : ∀ b, s.batch = some b → b.addressed = true → s.linkAddress.isSome = true
  forget : s.forgetPending = true → s.batch.isSome = true ∨ s.receiver.isResponding = true

/-- A response frame of at most 240 bytes with the check byte that belongs to it (R121, R148). -/
def Response.sound (r : Response) : Prop :=
  r.payload.length ≤ 240 ∧ r.check = crc8 (responseCovered r.status r.payload)

/-- The batch keeps room for two bytes of each command still to come, makes one entry for each command answered, and every
response is a whole frame that fits (R146, R148, R150). -/
structure State.ResponsesFit (s : State) : Prop where
  count : ∀ b, s.batch = some b → b.position ≤ b.commands.length ∧ b.commands.length ≤ 17
  entries : ∀ b, s.batch = some b → b.entries.length = if b.addressed then b.position else 0
  room : ∀ b, s.batch = some b → b.used + 2 * (b.commands.length - b.position) ≤ 240
  clearing : ∀ b, s.batch = some b → b.clearing.isSome = true →
    b.commands[b.position]? = some .clearUnit ∧ b.stopped = false ∧ b.lacksRoom .clearUnit = false
  kept : ∀ r, s.kept = some r → r.sound
  sending : ∀ r, s.receiver = .responding r → r.sound

end Sys2Proof.Machine
end

