-- ==== Sys2Proof/Certificates/Slice0/Obligations.lean ====
section
/-! DEFINITION. The statements for the provers. `Sys2Proof.Machine.State.ready` is the state in which nothing that a tick has
made due is left (log entry 5); `State.runs s b c` says that `c` is the next command of the batch `b` and runs. An equation
with a record update states its frame: every field it does not name is unchanged. The model's own choices that statements rest
on are named where they stand: `ready` (log entry 5), `presented` (log entry 9), `memTag` and `freeCount` (log entry 4), `gap`
(log entry 6), a command that is not the batch's next (log entry 1), `clearing` (log entry 14), `fitReturn` (log entry 13). -/

open Sys2Proof Sys2Proof.Machine

/-! ### The step and the queue -/

/-- The step law: with `c` at the front of the queue, step is exec of `c` on the state with the queue's rest; an empty queue
idles (the model's choice, log entry 2). -/
def Obligations.StepTakesTheFrontCommand : Prop :=
  (∀ (c : Instr) (rest : List Instr) (s : State), s.pending = c :: rest → step s = exec c { s with pending := rest }) ∧
  ∀ s : State, s.pending = [] → step s = .next s

/-- Nothing stops the block while its match table is sound: every step, of any command, answers a next state (R43, R45, R75).
That an empty queue idles is the model's choice (log entry 2), that an event which cannot happen changes nothing is too (log
entry 1), and the only stop there is, the fault overlayAddress, is the model's (log entry 11). -/
def Obligations.EveryStepOverASoundTableCompletes : Prop :=
  ∀ s : State, s.TableSound → ∃ t, step s = .next t

/-- After what a tick has made due is completed nothing is left due, a ready state is unchanged by it, and every row that is
not itself a due step or a POR_N row acts as on the completed state (R67, R68, R116, R130, R178; the model's order, log
entry 5). -/
def Obligations.SettlingLeavesNothingDue : Prop :=
  (∀ s : State, (∀ t x, s.slot t = some x → x.request.tag = t) → s.porAsserted = false → s.settle.ready) ∧
  (∀ s : State, s.ready → s.settle = s) ∧
  ∀ (c : Instr) (s : State), s.settle.settle = s.settle →
    c ∉ [.budgetStep, .holdExpiry, .pulseEnd, .gapAbort, .responseGapAbandon, .roundGapAbandon, .porNAsserted] →
    (∀ l, c ≠ .porNReleased l) → (∀ r, c ≠ .memoryReturnDuringPor r) → s.porAsserted = false →
    exec c s = exec c s.settle

/-- No command or event changes the queue or the unit identity (R126). POR_N, the tick count and the divider, RQRST_IN, the
arrival position, the request at the port (log entry 9), the overlay store, the match table, the event latch, the fairness
count, the issue list, the injected queue and its next id, no-hold mode, the trace settings, the attention enable and the check
error count each change by the rows named for them and by no other, the POR_N rows apart. -/
def Obligations.OnlyNamedRowsChangeEachField : Prop :=
  (∀ (c : Instr) (s t : State), exec c s = .next t →
    t.pending = s.pending ∧ t.serial = s.serial ∧ t.revision = s.revision) ∧
  ∀ (c : Instr) (s t : State), exec c s = .next t →
    c ≠ .porNAsserted → (∀ l, c ≠ .porNReleased l) →
    t.porAsserted = s.porAsserted ∧
    ((∀ n, c ≠ .tick n) → t.tickCount = s.tickCount ∧ t.divider = s.divider) ∧
    (c ≠ .rqrstInAsserted → c ≠ .rqrstInDeasserted → t.rqrstIn = s.rqrstIn) ∧
    ((∀ r, c ≠ .requestArrival r) → t.nextPosition = s.nextPosition ∧ t.presented = s.presented) ∧
    ((∀ r, c ≠ .requestArrival r) → (∀ st n d, c ≠ .writeOverlay st n d) → c ≠ .clearUnitOverlay → t.store = s.store) ∧
    ((∀ r, c ≠ .requestArrival r) → (∀ r, c ≠ .memoryReturn r) → (∀ i im, c ≠ .writeEntry i im) →
      (∀ i, c ≠ .enableEntry i) → (∀ i, c ≠ .disableEntry i) → (∀ i, c ≠ .armEntry i) → (∀ i, c ≠ .disarmEntry i) →
      (∀ i, c ≠ .clearCount i) → c ≠ .clearUnitMatchTable → t.table = s.table) ∧
    ((∀ r, c ≠ .requestArrival r) → (∀ r, c ≠ .memoryReturn r) → c ≠ .eventClear → c ≠ .clearUnitEventLatch →
      t.eventLatch = s.eventLatch) ∧
    (c ≠ .memoryPortGrant → t.fairness = s.fairness ∧ t.freeCount = s.freeCount) ∧
    (c ≠ .memoryPortGrant → (∀ r, c ≠ .memoryReturn r) → t.issueList = s.issueList) ∧
    (c ≠ .memoryPortGrant → (∀ r, c ≠ .memoryReturn r) → (∀ a z, c ≠ .peek a z) → (∀ a z d, c ≠ .poke a z d) →
      (∀ i, c ≠ .accessResult i) → t.injected = s.injected) ∧
    ((∀ a z, c ≠ .peek a z) → (∀ a z d, c ≠ .poke a z d) → t.nextAccessId = s.nextAccessId) ∧
    ((∀ m, c ≠ .setMode m) → c ≠ .clearUnitHolds → t.noHold = s.noHold) ∧
    ((∀ m n f, c ≠ .traceControl m n f) → c ≠ .clearUnit →
      t.traceMode = s.traceMode ∧ t.threshold = s.threshold ∧ t.protocolRecords = s.protocolRecords) ∧
    ((∀ e, c ≠ .attentionControl e) → t.attentionEnable = s.attentionEnable) ∧
    ((∀ f, c ≠ .badCheckFrame f) → (∀ f, c ≠ .commandFrame f) → (∀ f, c ≠ .groupCommandFrame f) →
      (∀ f, c ≠ .readbackFrame f) → (∀ f, c ≠ .enumFrame f) → (∀ f, c ≠ .pollFrame f) →
      (∀ f, c ≠ .frameNotActedOn f) → t.checkErrors = s.checkErrors)

/-! ### Invariants -/

/-- The state right after reset: the power-on values of every block (R25, R26, R73, R74, R100, R111, R127, R181), with nothing
waiting, and every property below. -/
def Obligations.ResetIsSound : Prop :=
  ((∀ t, State.reset.slot t = none) ∧ State.reset.answerQueue = [] ∧ State.reset.issueList = [] ∧
    State.reset.fairness = 0 ∧
    (∀ i : EntryIndex, State.reset.table[i].enabled = false ∧ State.reset.table[i].armed = false ∧
      State.reset.table[i].hits = 0 ∧ State.reset.table[i].config = EntryConfig.powerOn) ∧
    State.reset.holds = [] ∧ State.reset.nextHoldId = 0 ∧ State.reset.refusedHolds = 0 ∧ State.reset.noHold = false ∧
    State.reset.divider = 0 ∧ (∀ a, Memory.read State.reset.store a = 0) ∧ State.reset.log = [] ∧
    State.reset.nextSeq = 0 ∧ State.reset.lost = 0 ∧ State.reset.traceMode = .stop ∧ State.reset.threshold = 0 ∧
    State.reset.protocolRecords = false ∧ State.reset.injected = [] ∧ State.reset.nextAccessId = 1 ∧
    State.reset.receiver = .idle ∧ State.reset.linkAddress = none ∧ State.reset.groupAddress = none ∧
    State.reset.attentionEnable = true ∧ State.reset.attention = ⟨true, none, none, none⟩ ∧ State.reset.kept = none ∧
    State.reset.checkErrors = 0 ∧ State.reset.tickCount = 0 ∧ State.reset.eventLatch = false ∧
    State.reset.pulse = none ∧ State.reset.batch = none ∧ State.reset.pending = []) ∧
  State.reset.ready ∧ State.reset.Bounded ∧ State.reset.StoreSound ∧ State.reset.TableSound ∧ State.reset.LogNumbered ∧
  State.reset.BudgetsBounded ∧ State.reset.MemTagsDistinct ∧ State.reset.PathSound ∧ State.reset.ParkingSound ∧
  State.reset.LinkSound ∧ State.reset.ResponsesFit

/-- The hold queue, the log, the injected queue and the issue list stay within their rooms, and the counts, the pulse and the
pause within their ranges (R13, R15, R49, R56, R67, R85, R92, R98, R102, R103, R116, R125, R178). The answer queue's room of 8
follows from its agreement with the slots, a statement of its own. -/
def Obligations.EveryStepKeepsRoomAndCounts : Prop :=
  ∀ s t : State, s.Bounded → step s = .next t → t.Bounded

/-- The overlay store stays canonical and within its 1024 bytes (R74). -/
def Obligations.EveryStepKeepsTheStoreCanonical : Prop :=
  ∀ s t : State, s.StoreSound → step s = .next t → t.StoreSound

/-- Every hit counter stays below its threshold and every enabled entry legal (R32, R43, R45). -/
def Obligations.EveryStepKeepsTheTableSound : Prop :=
  ∀ s t : State, s.TableSound → step s = .next t → t.TableSound

/-- The sequence numbers in the log run without a gap (R88). -/
def Obligations.EveryStepKeepsTheLogNumbered : Prop :=
  ∀ s t : State, s.LogNumbered → step s = .next t → t.LogNumbered

/-- No remaining budget exceeds 4095 and no extend count 8 (R66). -/
def Obligations.EveryStepKeepsBudgetsBounded : Prop :=
  ∀ s t : State, s.BudgetsBounded → step s = .next t → t.BudgetsBounded

/-- The accesses outstanding on the memory port carry different tags (R3). -/
def Obligations.EveryStepKeepsMemoryTagsDistinct : Prop :=
  ∀ s t : State, s.MemTagsDistinct → step s = .next t → t.MemTagsDistinct

/-- The answer queue, the hold queue and the issue list keep listing exactly the slots and records in the states that belong
to them (R13, R20, R49). -/
def Obligations.EveryStepKeepsQueuesAndSlotsInAgreement : Prop :=
  ∀ s t : State, s.PathSound → step s = .next t → t.PathSound

/-- No transaction goes ahead of an earlier conflicting one that is PARKED or HELD, and none stays parked without one, so the
transaction that is granted the port has no such earlier one (R9, R11). -/
def Obligations.EveryStepKeepsTheParkingOrder : Prop :=
  (∀ s t : State, s.PathSound → s.ParkingSound → step s = .next t → t.ParkingSound) ∧
  ∀ (s : State) (u : Tag) (x : Transaction), s.ParkingSound → s.pathCandidate = some u → s.slot u = some x →
    ¬ ∃ v y, s.slot v = some y ∧ (y.stage = .parked ∨ y.stage = .held) ∧ y.position < x.position ∧
      y.request.addr.toNat / 64 = x.request.addr.toNat / 64 ∧ (y.request.kind = .write ∨ x.request.kind = .write)

/-- The addresses stay in range and agree with the batch, the receiver and a waiting FORGET (R113, R127, R131, R135, R137). -/
def Obligations.EveryStepKeepsTheLinkStateSound : Prop :=
  ∀ s t : State, s.LinkSound → step s = .next t → t.LinkSound

/-- Every response that is built, kept or sent fits in 240 bytes and carries its check byte (R121, R148, R150). -/
def Obligations.EveryStepKeepsResponsesWithinTheirFrame : Prop :=
  ∀ s t : State, s.Bounded → s.ResponsesFit → step s = .next t → t.ResponsesFit

/-! ### Power-on reset (R180, R181) -/

/-- While POR_N is asserted every block is at its power-on values and takes no event; its release starts the part from them
(R180, R181). The level of RQRST_IN, the identity, the queue and the model's counter stand (log entry 8), and so does the
request at the port: one that is presented while POR_N is asserted stays presented (R5; log entry 9). The row of a return
during POR_N changes nothing in any state, and the other rows nothing while POR_N is asserted (log entry 1). -/
def Obligations.PowerOnResetHoldsEveryBlock : Prop :=
  (∀ s : State, exec .porNAsserted s = .next { State.reset with
      porAsserted := true, rqrstIn := s.rqrstIn, presented := s.presented, serial := s.serial, revision := s.revision,
      freeCount := s.freeCount, pending := s.pending }) ∧
  (∀ (l : Bool) (s : State), s.porAsserted = true → exec (.porNReleased l) s = .next { State.reset with
      porAsserted := false, rqrstIn := l, presented := s.presented, serial := s.serial, revision := s.revision,
      freeCount := s.freeCount, pending := s.pending }) ∧
  (∀ (r : MemReturn) (s : State), exec (.memoryReturnDuringPor r) s = .next s) ∧
  (∀ (r : Request) (s : State), s.porAsserted = true → exec (.requestArrival r) s =
    .next { s with presented := if s.presented = none then some r else s.presented }) ∧
  ∀ (c : Instr) (s : State), s.porAsserted = true → c ≠ .porNAsserted → (∀ l, c ≠ .porNReleased l) →
    (∀ r, c ≠ .requestArrival r) → exec c s = .next s

/-! ### The path: arrivals -/

/-- A request that fails the protocol check is answered FAULT at once; it has no disposition, reaches no entry and no memory,
and is traced if the flag is on (R4). -/
def Obligations.ProtocolErrorFaultsAtOnce : Prop :=
  (∀ r : Request, (protocolError r = some .malformed ↔ r.kind = .write ∧ r.size = .line) ∧
    (protocolError r = some .misaligned ↔
      ¬ (r.kind = .write ∧ r.size = .line) ∧ r.addr.toNat % r.size.bytes ≠ 0)) ∧
  ∀ (s : State) (r : Request) (o : TraceOutcome), s.admits r → protocolError r = some o →
    exec (.requestArrival r) s = .next (State.appendAll
      (if s.protocolRecords then
        [⟨.protocol, none, none, some ⟨r.kind, r.size, r.priv, r.addr⟩,
          if r.kind = .write ∧ r.size ≠ .line then r.data else [], o⟩]
      else [])
      { s with
        presented := none
        nextPosition := s.nextPosition + 1
        transit := s.transit.set r.tag (some ⟨s.nextPosition, r, none, .answering ⟨.fault, []⟩⟩)
        answerQueue := s.answerQueue ++ [r.tag] })

/-- An accepted request takes the next position in its tag's slot, keeps its fields and the disposition that early evaluation
gives it, and changes no other slot, nothing at the memory port or in the injection unit, no tick, pulse or divider, no mode or
threshold, and at the link neither address, kept response, check error count nor batch (R1, R6, R7, R8; that it is presented
no longer is log entry 9). -/
def Obligations.ArrivalTakesItsSlotAndNoOther : Prop :=
  ∀ (s : State) (r : Request), s.TableSound → s.admits r →
    ∃ (t : State) (x : Transaction), exec (.requestArrival r) s = .next t ∧
      t.slot r.tag = some x ∧ x.position = s.nextPosition ∧ x.request = r ∧
      x.disposition =
        (if protocolError r = none then some (earlyDisposition s.table (firedEntries s.table false r r.data)) else none) ∧
      (∀ u, u ≠ r.tag → t.slot u = s.slot u) ∧
      t.nextPosition = s.nextPosition + 1 ∧ t.presented = none ∧
      t.issueList = s.issueList ∧ t.fairness = s.fairness ∧ t.injected = s.injected ∧ t.nextAccessId = s.nextAccessId ∧
      t.tickCount = s.tickCount ∧ t.pulse = s.pulse ∧ t.divider = s.divider ∧ t.noHold = s.noHold ∧
      t.traceMode = s.traceMode ∧ t.threshold = s.threshold ∧ t.linkAddress = s.linkAddress ∧
      t.groupAddress = s.groupAddress ∧ t.kept = s.kept ∧ t.checkErrors = s.checkErrors ∧ t.batch = s.batch

/-- A request that no entry hits is passed: it waits for memory, or parks behind an earlier PARKED or HELD transaction of its
granule where one of the two is a WRITE (R9, R10). -/
def Obligations.UnmatchedArrivalWaitsOrParks : Prop :=
  (∀ (s : State) (p : Nat) (r : Request), s.blocked p r = true ↔
    ∃ u y, s.slot u = some y ∧ (y.stage = .parked ∨ y.stage = .held) ∧ y.position < p ∧
      y.request.addr.toNat / 64 = r.addr.toNat / 64 ∧ (y.request.kind = .write ∨ r.kind = .write)) ∧
  ∀ (s : State) (r : Request), s.admits r → protocolError r = none →
    (∀ i : EntryIndex, s.table[i].hitsOn false r r.data = false) →
    exec (.requestArrival r) s = .next { s with
      presented := none
      nextPosition := s.nextPosition + 1
      transit := s.transit.set r.tag
        (some ⟨s.nextPosition, r, some .pass, if s.blocked s.nextPosition r then .parked else .waiting⟩) }

/-- A request to be held at point BEFORE that does not park: with no-hold mode off and room in the queue a record with the
disposition's budget and policy is created, its slot is HELD and HOLD is posted; in no-hold mode nothing is created or
counted; with the queue full the refusal is counted (R10, R52, R53, R54, R56, R70). -/
def Obligations.BeforeHoldIsCreatedSuppressedOrRefused : Prop :=
  ∀ (s : State) (r : Request) (e : EntryIndex) (b : Nat) (p : Policy), s.admits r → protocolError r = none →
    earlyDisposition s.table (firedEntries s.table false r r.data) = .hold e .before b p →
    s.blocked s.nextPosition r = false →
    ∃ (t : State) (x : Transaction), exec (.requestArrival r) s = .next t ∧ t.slot r.tag = some x ∧
      (s.noHold = false → s.holds.length < 4 →
        x.stage = .held ∧
        t.holds = s.holds ++ [⟨s.newHoldId, r.tag, e, .before, r.kind, r.addr, r.size, r.priv,
          if r.kind = .write then r.data else [], none, b, p, 0, false⟩] ∧
        t.nextHoldId = s.newHoldId + 1 ∧ t.attention.hold = some s.newHoldId ∧ t.refusedHolds = s.refusedHolds) ∧
      (s.noHold = true →
        x.stage = .waiting ∧ t.holds = s.holds ∧ t.nextHoldId = s.nextHoldId ∧ t.attention.hold = s.attention.hold ∧
        t.refusedHolds = s.refusedHolds) ∧
      (s.noHold = false → 4 ≤ s.holds.length →
        x.stage = .waiting ∧ t.holds = s.holds ∧ t.nextHoldId = s.nextHoldId ∧ t.attention.hold = s.attention.hold ∧
        t.refusedHolds = min (s.refusedHolds + 1) 65535)

/-- A FAULT disposition is answered FAULT; an OVERLAY transaction wholly inside the deciding window is answered from the
store or written into it, byte for byte; any other is answered FAULT and the store is not touched (R8, R75 to R78). -/
def Obligations.OverlayAndFaultAnswerAtArrival : Prop :=
  ∀ (s : State) (r : Request), s.admits r → protocolError r = none → s.TableSound → s.StoreSound →
    (∀ e, earlyDisposition s.table (firedEntries s.table false r r.data) = .fault e →
      ∃ t x, exec (.requestArrival r) s = .next t ∧ t.slot r.tag = some x ∧ x.stage = .answering ⟨.fault, []⟩ ∧
        t.answerQueue = s.answerQueue ++ [r.tag] ∧ t.store = s.store) ∧
    ∀ e base limit offset, earlyDisposition s.table (firedEntries s.table false r r.data) = .overlay e base limit offset →
      ((¬ (base.toNat ≤ r.addr.toNat ∧ r.addr.toNat + r.size.bytes - 1 ≤ limit.toNat)) →
        ∃ t x, exec (.requestArrival r) s = .next t ∧ t.slot r.tag = some x ∧ x.stage = .answering ⟨.fault, []⟩ ∧
          t.answerQueue = s.answerQueue ++ [r.tag] ∧ t.store = s.store) ∧
      (base.toNat ≤ r.addr.toNat → r.addr.toNat + r.size.bytes - 1 ≤ limit.toNat → r.kind ≠ .write →
        ∃ t x data, exec (.requestArrival r) s = .next t ∧ t.slot r.tag = some x ∧ x.stage = .answering ⟨.done, data⟩ ∧
          t.answerQueue = s.answerQueue ++ [r.tag] ∧ data.length = r.size.bytes ∧
          (∀ k, k < r.size.bytes → data[k]? = some (Memory.read s.store (overlayByte base offset r.addr + k))) ∧
          t.store = s.store) ∧
      (base.toNat ≤ r.addr.toNat → r.addr.toNat + r.size.bytes - 1 ≤ limit.toNat → r.kind = .write →
        r.data.length = r.size.bytes →
        ∃ t x, exec (.requestArrival r) s = .next t ∧ t.slot r.tag = some x ∧ x.stage = .answering ⟨.done, []⟩ ∧
          t.answerQueue = s.answerQueue ++ [r.tag] ∧
          (∀ k, k < r.size.bytes →
            some (Memory.read t.store (overlayByte base offset r.addr + k)) = r.data[k]?) ∧
          ∀ a, a < overlayByte base offset r.addr ∨ overlayByte base offset r.addr + r.size.bytes ≤ a →
            Memory.read t.store a = Memory.read s.store a)

/-- A request whose slot is not FREE, or while acceptance is barred, stays presented; one behind an earlier request that
stays presented does not reach the port (R5; log entry 9). The requester is shown the oldest answer, and taking it frees its
slot (R2, R20, R21). Nothing else changes. -/
def Obligations.RequesterPortHandshake : Prop :=
  ((∀ s : State, s.barred = true ↔ s.rqrstIn = true ∨ (∃ n, s.pulse = some (n + 1)) ∨ s.porAsserted = true) ∧
  ∀ (s : State) (r : Request), s.ready →
    ((s.presented = none ∨ s.presented = some r) → (s.slot r.tag).isSome = true ∨ s.barred = true →
      exec (.requestArrival r) s = .next { s with presented := some r }) ∧
    ∀ q, s.presented = some q → q ≠ r → exec (.requestArrival r) s = .next s) ∧
  ∀ (s : State) (u : Tag) (q : List Tag), s.ready → s.answerQueue = u :: q →
    exec .responseTaken s = .next { s with answerQueue := q, transit := s.transit.set u none } ∧
    ∀ x r, s.slot u = some x → x.stage = .answering r → s.presentedResponse = some (u, r)

/-! ### The path: answers, grants and returns -/

/-- A grant goes to the WAITING slot with the smallest position, unless an injected record waits as well and four path grants
in a row have passed it by; it sends the request as it stands and moves the fairness count (R1, R14, R15, R108). With the list
full or no candidate there is no grant. Which unused tag the request carries, `memTag`, is a free value, and `freeCount` is the
model's counter of grants (R3; log entry 4). -/
def Obligations.GrantGoesToOneCandidate : Prop :=
  (∀ (s : State) (u : Tag), s.pathCandidate = some u → s.isWaiting u = true ∧
    ∀ v, s.isWaiting v = true → s.positionOf u ≤ s.positionOf v) ∧
  (∀ s : State, s.pathCandidate = none ↔ ∀ v, s.isWaiting v = false) ∧
  (∀ (s : State) (u : Tag) (x : Transaction), s.ready → s.issueList.length < 8 → s.pathCandidate = some u →
    s.slot u = some x → (s.injectedCandidate = none ∨ s.fairness ≠ 4) →
    exec .memoryPortGrant s = .next { s with
      transit := s.transit.set u (some { x with stage := .issued })
      issueList := s.issueList ++ [⟨.slot u, ⟨s.memTag, x.request.kind, x.request.addr, x.request.size, x.request.priv,
        if x.request.kind = .write then x.request.data else []⟩⟩]
      fairness := if s.injectedCandidate = none then 0 else s.fairness + 1
      freeCount := s.freeCount + 1 }) ∧
  (∀ (s : State) (a : Access), s.ready → s.issueList.length < 8 → s.injectedCandidate = some a →
    (s.pathCandidate = none ∨ s.fairness = 4) →
    exec .memoryPortGrant s = .next { s with
      injected := s.injected.map fun b => if b.id = a.id then { b with state := .issued } else b
      issueList := s.issueList ++ [⟨.injected a.id, ⟨s.memTag, if a.kind = .poke then .write else .read, a.addr, a.size,
        .priv, if a.kind = .poke then a.data else []⟩⟩]
      fairness := 0
      freeCount := s.freeCount + 1 }) ∧
  ∀ s : State, s.ready → 8 ≤ s.issueList.length ∨ (s.pathCandidate = none ∧ s.injectedCandidate = none) →
    exec .memoryPortGrant s = .next s

/-- A return for an orphan is discarded and its slot is free; one for an injected record finishes the record, with as many bytes
of a PEEK's data as its size; one that no access waits for has no effect (R16, R19, R109). Bytes that a return too short for the
record does not have are free values (`fitReturn`, log entry 13). -/
def Obligations.ReturnForOrphanOrInjectedRecord : Prop :=
  (∀ (s : State) (r : MemReturn), s.ready → s.issueList = [] → exec (.memoryReturn r) s = .next s) ∧
  (∀ (s : State) (r : MemReturn) (m : MemRequest) (rest : List IssueEntry) (u : Tag) (x : Transaction), s.ready →
    s.issueList = ⟨.slot u, m⟩ :: rest → s.slot u = some x → x.stage = .orphan →
    exec (.memoryReturn r) s = .next { s with issueList := rest, transit := s.transit.set u none }) ∧
  ∀ (s : State) (r : MemReturn) (m : MemRequest) (rest : List IssueEntry) (id : Byte), s.ready →
    s.issueList = ⟨.injected id, m⟩ :: rest →
    exec (.memoryReturn r) s = .next { s with
      issueList := rest
      injected := s.injected.map fun a =>
        if a.id = id then
          { a with
            state := if r.status = .done then .done else .faulted
            data := if r.status = .done ∧ a.kind = .peek then (fitReturn s.headGrant a.size r).data else a.data }
        else a }

/-- A return for an ISSUED slot: a late FAULT discards the data and answers FAULT; otherwise an early HOLD at AFTER, or a late
HOLD, asks for a hold with the response as it returned; in every other case the slot answers as memory did, and a slot that
answers joins the answer queue. A hold that is created has its record, takes its id and posts HOLD; a refused one is counted.
No other slot changes (R17, R18, R20, R41, R51 to R53, R56, R70). The return is taken at the length of the access (R2); bytes
that it does not have are free values (log entry 13). -/
def Obligations.ReturnAnswersOrHolds : Prop :=
  (∀ (s : State) (x : Transaction) (r : MemReturn) (i : EntryIndex),
    decidingEntry s.table (s.lateFired x r) = some i → s.table[i].config.action = .fault →
    s.lateResult x r = .fault) ∧
  (∀ (s : State) (x : Transaction) (r : MemReturn) (e : EntryIndex) (b : Nat) (p : Policy),
    x.disposition = some (.hold e .after b p) →
    (∀ i, decidingEntry s.table (s.lateFired x r) = some i → s.table[i].config.action ≠ .fault) →
    s.lateResult x r = .hold e b p) ∧
  (∀ (s : State) (x : Transaction) (r : MemReturn) (i : EntryIndex),
    (∀ e b p, x.disposition ≠ some (.hold e .after b p)) → decidingEntry s.table (s.lateFired x r) = some i →
    s.table[i].config.action = .hold →
    s.lateResult x r = .hold i s.table[i].config.budget s.table[i].config.policy) ∧
  (∀ (s : State) (x : Transaction) (r : MemReturn), (∀ e b p, x.disposition ≠ some (.hold e .after b p)) →
    decidingEntry s.table (s.lateFired x r) = none → s.lateResult x r = .answer) ∧
  (∀ (s : State) (x : Transaction) (r : MemReturn), x.request.kind = .write ∨ r.status = .fault →
    s.lateFired x r = []) ∧
  (∀ (g : Nat) (z : Size) (q : MemReturn), (fitReturn g z q).tag = q.tag ∧ (fitReturn g z q).status = q.status ∧
    (fitReturn g z q).data.length = z.bytes ∧
    (∀ k, k < z.bytes → k < q.data.length → (fitReturn g z q).data[k]? = q.data[k]?) ∧
    (q.data.length = z.bytes → fitReturn g z q = q)) ∧
  ∀ (s : State) (q r : MemReturn) (m : MemRequest) (rest : List IssueEntry) (u : Tag) (x : Transaction), s.ready →
    s.issueList = ⟨.slot u, m⟩ :: rest → s.slot u = some x → x.stage = .issued → x.request.tag = u →
    r = fitReturn s.headGrant x.request.size q →
    ∃ (t : State) (y : Transaction), exec (.memoryReturn q) s = .next t ∧ t.issueList = rest ∧ t.slot u = some y ∧
      y.position = x.position ∧ y.request = x.request ∧ y.disposition = x.disposition ∧
      (∀ v, v ≠ u → t.slot v = s.slot v) ∧ t.store = s.store ∧ t.injected = s.injected ∧ t.fairness = s.fairness ∧
      (s.lateResult x r = .fault → y.stage = .answering ⟨.fault, []⟩ ∧ t.answerQueue = s.answerQueue ++ [u] ∧
        t.holds = s.holds ∧ t.nextHoldId = s.nextHoldId ∧ t.attention.hold = s.attention.hold ∧
        t.refusedHolds = s.refusedHolds) ∧
      (s.lateResult x r = .answer → y.stage = .answering (returnedResponse x r) ∧
        t.answerQueue = s.answerQueue ++ [u] ∧ t.holds = s.holds ∧ t.nextHoldId = s.nextHoldId ∧
        t.attention.hold = s.attention.hold ∧ t.refusedHolds = s.refusedHolds) ∧
      ∀ e b p, s.lateResult x r = .hold e b p →
        (s.noHold = false → s.holds.length < 4 → y.stage = .heldResponse (returnedResponse x r) ∧
          t.holds = s.holds ++ [⟨s.newHoldId, u, e, .after, x.request.kind, x.request.addr, x.request.size,
            x.request.priv, (returnedResponse x r).data, some r.status, b, p, 0, false⟩] ∧
          t.answerQueue = s.answerQueue ∧ t.nextHoldId = s.newHoldId + 1 ∧ t.attention.hold = some s.newHoldId ∧
          t.refusedHolds = s.refusedHolds) ∧
        (s.noHold = true ∨ 4 ≤ s.holds.length →
          y.stage = .answering (returnedResponse x r) ∧ t.answerQueue = s.answerQueue ++ [u] ∧ t.holds = s.holds ∧
          t.nextHoldId = s.nextHoldId ∧ t.attention.hold = s.attention.hold ∧
          t.refusedHolds = if s.noHold then s.refusedHolds else min (s.refusedHolds + 1) 65535)

/-! ### The match unit -/

/-- The window test: any byte touched lies between base and limit, whatever the entry's action; with the manual's four
examples (R27). The kind and privilege tests (R28). -/
def Obligations.WindowKindAndPrivilegeTests : Prop :=
  ((∀ (c : EntryConfig) (r : Request), c.base.toNat ≤ c.limit.toNat →
    (c.inWindow r = true ↔
      ∃ a, r.addr.toNat ≤ a ∧ a ≤ r.addr.toNat + r.size.bytes - 1 ∧ c.base.toNat ≤ a ∧ a ≤ c.limit.toNat) ∧
    ∀ act, EntryConfig.inWindow { c with action := act } r = c.inWindow r) ∧
  Size.one.bytes = 1 ∧ Size.two.bytes = 2 ∧ Size.four.bytes = 4 ∧ Size.line.bytes = 16 ∧
  ∀ (c : EntryConfig) (r : Request), c.base = 0x20000102 → c.limit = 0x20000102 →
    (r.addr = 0x20000102 → r.size = .one ∨ r.size = .two → c.inWindow r = true) ∧
    (r.addr = 0x20000100 → r.size = .four ∨ r.size = .line → c.inWindow r = true) ∧
    (r.addr = 0x20000100 → r.size = .two → c.inWindow r = false)) ∧
  (∀ (ks : KindSet) (k : Kind), ks.has k = true ↔
    (k = .read ∧ ks.read = true) ∨ (k = .write ∧ ks.write = true) ∨ (k = .fetch ∧ ks.fetch = true)) ∧
  (∀ (f : PrivFilter) (p : Privilege), f.passes p = true ↔ f = .any ∨ (f = .priv ∧ p = .priv) ∨ (f = .user ∧ p = .user)) ∧
  ∀ (e : MatchEntry) (late : Bool) (r : Request) (data : List Byte),
    (e.config.kinds.has r.kind = false ∨ e.config.filter.passes r.priv = false → e.hitsOn late r data = false) ∧
    (e.config.kinds.fetch = false → r.kind = .fetch → e.hitsOn late r data = false) ∧
    (e.config.kinds.read = false → r.kind = .read → e.hitsOn late r data = false)

/-- The data condition: every selected bit lies in a lane the access touches and equals the value's bit; a LINE fails every
condition; a mask of 0 holds for every other access (R29). -/
def Obligations.DataConditionTestsTouchedLanes : Prop :=
  ∀ (c : DataCond) (r : Request) (data : List Byte), r.addr.toNat % r.size.bytes = 0 → data.length = r.size.bytes →
    (c.holds r data = true ↔ r.size ≠ .line ∧
      ∀ n, n < 32 → c.mask.getLsbD n = true →
        ∃ k, k < r.size.bytes ∧ (r.addr.toNat + k) % 4 = n / 8 ∧
          (data.getD k 0).getLsbD (n % 8) = c.value.getLsbD n) ∧
    (c.mask = 0 → (c.holds r data = true ↔ r.size ≠ .line))

/-- In an evaluation an entry that hits counts one, or fires and returns to 0 where the hit reaches its threshold; no other
part of an entry but the armed state changes; the event latch is set by a firing entry with SIGNAL on and stays set
(R30, R32, R36). -/
def Obligations.HitsCountAndFire : Prop :=
  ∀ (s : State) (late : Bool) (r : Request) (data : List Byte), s.TableSound →
    (∀ i : EntryIndex,
      (s.evaluated late r data).table[i].hits =
        (if s.table[i].hitsOn late r data then
          (if s.table[i].hits + 1 = s.table[i].config.threshold then 0 else s.table[i].hits + 1)
        else s.table[i].hits) ∧
      (i ∈ firedEntries s.table late r data ↔
        s.table[i].hitsOn late r data = true ∧ s.table[i].hits + 1 = s.table[i].config.threshold) ∧
      (s.evaluated late r data).table[i].config = s.table[i].config ∧
      (s.evaluated late r data).table[i].enabled = s.table[i].enabled) ∧
    ((s.evaluated late r data).eventLatch = true ↔ s.eventLatch = true ∨
      ∃ i ∈ firedEntries s.table late r data, s.table[i].config.signal = true) ∧
    ∀ i : EntryIndex, s.table[i].config.cond.isSome = true → s.table[i].config.takesPart false .read = false ∧
      s.table[i].config.takesPart false .fetch = false ∧ s.table[i].config.takesPart true .write = false

/-- The disposition is that of the lowest-indexed firing entry whose action is not PASS, with copies of its values; PASS
without one (R33). Of the firing entries that act on an entry's armed state, by its own ONESHOT or by an arm link to it, the
highest-indexed decides it, with its arm link after its ONESHOT; without one it is unchanged (R34, R37, R38, R39). -/
def Obligations.LowestFiringDecidesHighestArms : Prop :=
  (∀ (tb : Vector MatchEntry 16) (late : Bool) (r : Request) (data : List Byte),
    ((∀ i ∈ firedEntries tb late r data, tb[i].config.action = .pass) →
      earlyDisposition tb (firedEntries tb late r data) = .pass) ∧
    ∀ i ∈ firedEntries tb late r data, tb[i].config.action ≠ .pass →
      (∀ k ∈ firedEntries tb late r data, k < i → tb[k].config.action = .pass) →
      (tb[i].config.action = .hold → earlyDisposition tb (firedEntries tb late r data) =
        .hold i tb[i].config.point tb[i].config.budget tb[i].config.policy) ∧
      (tb[i].config.action = .overlay → earlyDisposition tb (firedEntries tb late r data) =
        .overlay i tb[i].config.base tb[i].config.limit tb[i].config.offset) ∧
      (tb[i].config.action = .fault → earlyDisposition tb (firedEntries tb late r data) = .fault i)) ∧
  ∀ (s : State) (late : Bool) (r : Request) (data : List Byte) (j : EntryIndex),
    ((∀ i ∈ firedEntries s.table late r data,
        ¬ ((i = j ∧ s.table[i].config.oneshot = true) ∨ ∃ l, s.table[i].config.link = some l ∧ l.target = j)) →
      (s.evaluated late r data).table[j].armed = s.table[j].armed) ∧
    ∀ i ∈ firedEntries s.table late r data,
      (∀ k ∈ firedEntries s.table late r data, i < k →
        ¬ ((k = j ∧ s.table[k].config.oneshot = true) ∨ ∃ l, s.table[k].config.link = some l ∧ l.target = j)) →
      (∀ l, s.table[i].config.link = some l → l.target = j →
        (s.evaluated late r data).table[j].armed = decide (l.effect = .arm)) ∧
      (i = j → s.table[i].config.oneshot = true → (∀ l, s.table[i].config.link = some l → l.target ≠ j) →
        (s.evaluated late r data).table[j].armed = false)

/-- The records of an evaluation: FIRE or LATE-FIRE for each firing entry with LOG on, in ascending order, all with the
outcome and hold id that the table of R35 gives, then the HOLD-END record of a refused hold (R35, R42, R53, R59, R94). A return
is taken at the length of the access (log entry 13). -/
def Obligations.FiringEntriesWithLogAreTraced : Prop :=
  (∀ (tb : Vector MatchEntry 16) (late : Bool) (r : Request) (data : List Byte),
    (firedEntries tb late r data).Pairwise (· < ·)) ∧
  (∀ (s t : State) (r : Request), s.admits r → protocolError r = none → exec (.requestArrival r) s = .next t →
    ∃ (o : TraceOutcome) (id : Option Byte) (after : List TraceNote),
      t.log = (State.appendAll
        (((firedEntries s.table false r r.data).filter fun i => s.table[i].config.log).map (fun i =>
          ⟨.fire, some i, id, some ⟨r.kind, r.size, r.priv, r.addr⟩,
            if r.kind = .write ∧ r.size ≠ .line then r.data else [], o⟩) ++ after) s).log ∧
      match earlyDisposition s.table (firedEntries s.table false r r.data) with
      | .pass => o = .passed ∧ id = none ∧ after = []
      | .fault _ => o = .faulted ∧ id = none ∧ after = []
      | .overlay _ base limit _ =>
        o = (if whollyInside base limit r then .overlaid else .overlayStraddle) ∧ id = none ∧ after = []
      | .hold _ .after _ _ => o = .held ∧ id = none ∧ after = []
      | .hold e .before _ _ =>
        if s.blocked s.nextPosition r then o = .held ∧ id = none ∧ after = []
        else match s.holdAnswer with
          | .created n => o = .held ∧ id = some n ∧ after = []
          | .suppressed => o = .holdSuppressed ∧ id = none ∧ after = []
          | .refused => o = .holdRefused ∧ id = none ∧ after =
            [⟨.holdEnd, some e, none, some ⟨r.kind, r.size, r.priv, r.addr⟩,
              if r.kind = .write ∧ r.size ≠ .line then r.data else [], .holdRefused⟩]) ∧
  ∀ (s t : State) (q r : MemReturn) (m : MemRequest) (rest : List IssueEntry) (u : Tag) (x : Transaction), s.ready →
    s.issueList = ⟨.slot u, m⟩ :: rest → s.slot u = some x → x.stage = .issued →
    r = fitReturn s.headGrant x.request.size q → exec (.memoryReturn q) s = .next t →
    ∃ (o : TraceOutcome) (id : Option Byte) (after : List TraceNote),
      t.log = (State.appendAll
        (((s.lateFired x r).filter fun i => s.table[i].config.log).map (fun i =>
          ⟨.lateFire, some i, id, some ⟨x.request.kind, x.request.size, x.request.priv, x.request.addr⟩, r.data, o⟩) ++
          after) s).log ∧
      match s.lateResult x r with
      | .fault => o = .faulted ∧ id = none ∧ after = []
      | .answer => o = .passed ∧ id = none ∧ after = []
      | .hold e _ _ => match s.holdAnswer with
        | .created n => o = .held ∧ id = some n ∧ after = []
        | .suppressed => o = .holdSuppressed ∧ id = none ∧ after = []
        | .refused => o = .holdRefused ∧ id = none ∧ after =
          [⟨.holdEnd, some e, none, some ⟨x.request.kind, x.request.size, x.request.priv, x.request.addr⟩,
            if x.request.size = .line then [] else (returnedResponse x r).data, .holdRefused⟩]

/-! ### The match table's commands -/

/-- ARM-ENTRY, DISARM-ENTRY and CLEAR-COUNT change one thing in the entry they name and nothing else, enabled or not; an
index above 15 is answered BAD-OPERAND (R46, R47). -/
def Obligations.ArmDisarmAndClearCount : Prop :=
  ∀ (s : State) (b : Batch) (n : Byte),
    (∀ h : n.toNat < 16,
      (s.runs b (.armEntry n) → exec (.armEntry n) s = .next (State.answered
        { s with table := s.table.set n.toNat { s.table[n.toNat] with armed := true } } b (.armEntry n) .ok [])) ∧
      (s.runs b (.disarmEntry n) → exec (.disarmEntry n) s = .next (State.answered
        { s with table := s.table.set n.toNat { s.table[n.toNat] with armed := false } } b (.disarmEntry n) .ok [])) ∧
      (s.runs b (.clearCount n) → exec (.clearCount n) s = .next (State.answered
        { s with table := s.table.set n.toNat { s.table[n.toNat] with hits := 0 } } b (.clearCount n) .ok []))) ∧
    (16 ≤ n.toNat →
      (s.runs b (.armEntry n) → exec (.armEntry n) s = .next (s.answered b (.armEntry n) .badOperand [])) ∧
      (s.runs b (.disarmEntry n) → exec (.disarmEntry n) s = .next (s.answered b (.disarmEntry n) .badOperand [])) ∧
      (s.runs b (.clearCount n) → exec (.clearCount n) s = .next (s.answered b (.clearCount n) .badOperand [])))

/-- ENABLE-ENTRY enables a disabled entry whose stored configuration is legal, and is refused with BAD-ENTRY otherwise; on an
enabled entry it changes nothing; DISABLE-ENTRY disables. Neither changes the armed state or the counter (R45, R47). -/
def Obligations.EnableAndDisableEntry : Prop :=
  ∀ (s : State) (b : Batch) (n : Byte),
    (∀ h : n.toNat < 16,
      (s.runs b (.enableEntry n) →
        (s.table[n.toNat].enabled = true → exec (.enableEntry n) s = .next (s.answered b (.enableEntry n) .ok [])) ∧
        (s.table[n.toNat].enabled = false → s.table[n.toNat].config.legal = true →
          exec (.enableEntry n) s = .next (State.answered
            { s with table := s.table.set n.toNat { s.table[n.toNat] with enabled := true } } b (.enableEntry n) .ok [])) ∧
        (s.table[n.toNat].enabled = false → s.table[n.toNat].config.legal = false →
          exec (.enableEntry n) s = .next (s.answered b (.enableEntry n) .badEntry []))) ∧
      (s.runs b (.disableEntry n) → exec (.disableEntry n) s = .next (State.answered
        { s with table := s.table.set n.toNat { s.table[n.toNat] with enabled := false } } b (.disableEntry n) .ok []))) ∧
    (16 ≤ n.toNat →
      (s.runs b (.enableEntry n) → exec (.enableEntry n) s = .next (s.answered b (.enableEntry n) .badOperand [])) ∧
      (s.runs b (.disableEntry n) → exec (.disableEntry n) s = .next (s.answered b (.disableEntry n) .badOperand []))) ∧
    EntryConfig.powerOn.legal = false

/-- WRITE-ENTRY is answered BAD-OPERAND, ENTRY-BUSY or BAD-ENTRY in this order, or stores the image: disabled, armed as the
image says, counter 0, and zero in the fields that do not belong to the action; a configuration is illegal in the cases of R43
and no other, and the image's fields and their undefined codes are where R185 puts them (R43, R44, R157, R158, R185). -/
def Obligations.WriteEntryStoresOrRefuses : Prop :=
  (∀ (s : State) (b : Batch) (n : Byte) (im : List Byte), s.runs b (.writeEntry n im) →
    (16 ≤ n.toNat → exec (.writeEntry n im) s = .next (s.answered b (.writeEntry n im) .badOperand [])) ∧
    ∀ h : n.toNat < 16,
      (s.table[n.toNat].enabled = true →
        exec (.writeEntry n im) s = .next (s.answered b (.writeEntry n im) .entryBusy [])) ∧
      (s.table[n.toNat].enabled = false → imageDefined im = false ∨ (imageFields im).legal = false →
        exec (.writeEntry n im) s = .next (s.answered b (.writeEntry n im) .badEntry [])) ∧
      (s.table[n.toNat].enabled = false → imageDefined im = true → (imageFields im).legal = true →
        exec (.writeEntry n im) s = .next (State.answered
          { s with
            table := s.table.set n.toNat
              { config := { imageFields im with
                  point := if (imageFields im).action = .hold then (imageFields im).point else .before
                  budget := if (imageFields im).action = .hold then (imageFields im).budget else 0
                  policy := if (imageFields im).action = .hold then (imageFields im).policy else .proceed
                  offset := if (imageFields im).action = .overlay then (imageFields im).offset else 0 }
                enabled := false
                armed := (byteAt im 0).testBit 6
                hits := 0 } } b (.writeEntry n im) .ok []))) ∧
  (∀ c : EntryConfig, c.legal = false ↔
    c.limit.toNat < c.base.toNat ∨
    (c.kinds.read = false ∧ c.kinds.write = false ∧ c.kinds.fetch = false) ∨
    c.threshold = 0 ∨
    (c.action = .hold ∧ (c.budget = 0 ∨ 4095 < c.budget)) ∨
    (c.action = .overlay ∧ c.base.toNat % 4 ≠ 0) ∨
    (c.action = .overlay ∧ 1024 < 4 * c.offset + (c.limit.toNat - c.base.toNat + 1)) ∨
    (c.action = .overlay ∧ c.cond ≠ none) ∨
    (c.action = .hold ∧ c.point = .before ∧ c.cond ≠ none ∧ (c.kinds.read = true ∨ c.kinds.fetch = true))) ∧
  (∀ im : List Byte, imageDefined im = true ↔
    byteAt im 0 % 4 = 0 ∧ byteAt im 1 < 64 ∧ byteAt im 1 / 8 % 2 = 0 ∧ byteAt im 1 / 16 < 3 ∧
    byteAt im 2 < 32 ∧ byteAt im 2 / 4 % 4 < 2 ∧
    (128 ≤ byteAt im 3 → byteAt im 3 / 32 % 4 < 2 ∧ byteAt im 3 % 32 < 16)) ∧
  ∀ im : List Byte, FieldsOfImage im (imageFields im)

/-! ### Commands that read -/

/-- STATUS, GET-IDENTITY, READ-ENTRY, READ-OVERLAY, READ-TRACE, LIST-HOLDS and INSPECT return the bytes that their rules and
layouts give and change nothing: the status record, the entry image, the trace record images, the tag-and-point bytes and the
hold record image, byte by byte (R47, R61, R80, R95, R126, R155, R162, R163, R182, R185 to R188). -/
def Obligations.ReadingCommandsReturnAndChangeNothing : Prop :=
  ∀ (s : State) (b : Batch),
    (s.runs b .status → exec .status s = .next (s.answered b .status .ok s.statusRecord) ∧
      StatusRecordOf s s.statusRecord) ∧
    (s.runs b .getIdentity → exec .getIdentity s = .next (s.answered b .getIdentity .ok
      ([0x32, 0x14] ++ wordBytes s.serial ++ [s.revision]))) ∧
    (∀ (n : Byte) (h : n.toNat < 16), s.runs b (.readEntry n) →
      exec (.readEntry n) s = .next (s.answered b (.readEntry n) .ok s.table[n.toNat].image) ∧
      EntryImageOf s.table[n.toNat] s.table[n.toNat].image) ∧
    (∀ st n : Byte, s.runs b (.readOverlay st n) → 1 ≤ n.toNat → n.toNat ≤ 16 → st.toNat + n.toNat ≤ 256 →
      ∃ data, exec (.readOverlay st n) s = .next (s.answered b (.readOverlay st n) .ok data) ∧
        data.length = 4 * n.toNat ∧
        ∀ k, k < 4 * n.toNat → data[k]? = some (Memory.read s.store (4 * st.toNat + k))) ∧
    (∀ n : Byte, s.runs b (.readTrace n) → 1 ≤ n.toNat → n.toNat ≤ 8 →
      exec (.readTrace n) s = .next (s.answered b (.readTrace n) .ok
        (BitVec.ofNat 8 (min n.toNat s.log.length) :: BitVec.ofNat 8 (min s.log.length 255) ::
          (s.log.take n.toNat).flatMap TraceRecord.image)) ∧
      ∀ r ∈ s.log, TraceImageOf r r.image) ∧
    (s.runs b .listHolds → exec .listHolds s = .next (s.answered b .listHolds .ok
      (BitVec.ofNat 8 s.holds.length :: s.holds.flatMap fun h => [h.id, h.tagPoint])) ∧
      ∀ h ∈ s.holds, h.tagPoint.toNat = h.tag.val + 128 * [Point.before, .after].idxOf h.point) ∧
    ∀ (id : Byte) (h : Hold), s.runs b (.inspect id) → s.findHold id = some h →
      exec (.inspect id) s = .next (s.answered b (.inspect id) .ok h.image) ∧ HoldImageOf h h.image

/-! ### The overlay store's commands -/

/-- WRITE-OVERLAY puts its bytes at the word it names and leaves every other byte of the store; a count outside 1-16 or a
range past word 255 is answered BAD-OPERAND and writes nothing, as for READ-OVERLAY (R80, R81). -/
def Obligations.WriteOverlayWritesItsWordsOnly : Prop :=
  ∀ (s : State) (b : Batch) (st n : Byte),
    (∀ data : List Byte, s.runs b (.writeOverlay st n data) →
      (1 ≤ n.toNat → n.toNat ≤ 16 → st.toNat + n.toNat ≤ 256 → data.length = 4 * n.toNat → s.StoreSound →
        ∃ m, exec (.writeOverlay st n data) s =
            .next (State.answered { s with store := m } b (.writeOverlay st n data) .ok []) ∧
          (∀ k, k < 4 * n.toNat → some (Memory.read m (4 * st.toNat + k)) = data[k]?) ∧
          ∀ a, a < 4 * st.toNat ∨ 4 * st.toNat + 4 * n.toNat ≤ a → Memory.read m a = Memory.read s.store a) ∧
      (¬ (1 ≤ n.toNat ∧ n.toNat ≤ 16 ∧ st.toNat + n.toNat ≤ 256) →
        exec (.writeOverlay st n data) s = .next (s.answered b (.writeOverlay st n data) .badOperand []))) ∧
    (s.runs b (.readOverlay st n) → ¬ (1 ≤ n.toNat ∧ n.toNat ≤ 16 ∧ st.toNat + n.toNat ≤ 256) →
      exec (.readOverlay st n) s = .next (s.answered b (.readOverlay st n) .badOperand []))

/-! ### The trace log -/

/-- A record sent to the trace unit: with room it is appended with the next number and the tick count, and TRACE is posted
when the fill reaches the threshold; a full log discards it in STOP mode and drops its oldest record for it in WRAP mode,
and counts one lost (R88, R89, R90, R91, R92, R98). -/
def Obligations.TraceAppendRules : Prop :=
  ∀ (s : State) (n : TraceNote),
    (s.log.length < 256 →
      (s.append n).log = s.log ++ [⟨s.nextSeq, s.tickCount, n⟩] ∧ (s.append n).nextSeq = s.nextSeq + 1 ∧
      (s.append n).lost = s.lost ∧
      (s.append n).attention.trace =
        if s.threshold ≠ 0 ∧ s.log.length + 1 = s.threshold then some (BitVec.ofNat 8 (min (s.log.length + 1) 255))
        else s.attention.trace) ∧
    (256 ≤ s.log.length →
      (s.append n).lost = min (s.lost + 1) 65535 ∧ (s.append n).attention = s.attention ∧
      (s.traceMode = .stop → (s.append n).log = s.log ∧ (s.append n).nextSeq = s.nextSeq) ∧
      (s.traceMode = .wrap →
        (s.append n).log = s.log.tail ++ [⟨s.nextSeq, s.tickCount, n⟩] ∧ (s.append n).nextSeq = s.nextSeq + 1)) ∧
    (s.append n).attention.join = s.attention.join ∧ (s.append n).attention.hold = s.attention.hold ∧
    (s.append n).attention.expiry = s.attention.expiry

/-- ACK-TRACE removes the oldest records if there are as many as it names; TRACE-CONTROL sets mode, threshold and flag, and
empties the log and zeroes the lost count as asked; operands outside their ranges are answered BAD-OPERAND, as for
READ-TRACE (R95, R96, R99, R161). -/
def Obligations.AckTraceAndTraceControl : Prop :=
  ∀ (s : State) (b : Batch),
    (∀ n : Half, s.runs b (.ackTrace n) →
      (1 ≤ n.toNat → n.toNat ≤ 256 → n.toNat ≤ s.log.length → exec (.ackTrace n) s =
        .next (State.answered { s with log := s.log.drop n.toNat } b (.ackTrace n) .ok [])) ∧
      (n.toNat = 0 ∨ 256 < n.toNat ∨ s.log.length < n.toNat → exec (.ackTrace n) s =
        .next (s.answered b (.ackTrace n) .badOperand []))) ∧
    (∀ (m : Byte) (th : Half) (f : Byte), s.runs b (.traceControl m th f) →
      (m.toNat ≤ 1 → th.toNat ≤ 256 → f.toNat < 8 → exec (.traceControl m th f) s = .next (State.answered
        { s with
          traceMode := if m = 0 then .stop else .wrap
          threshold := th.toNat
          protocolRecords := f.getLsbD 0
          log := if f.getLsbD 1 then [] else s.log
          lost := if f.getLsbD 2 then 0 else s.lost } b (.traceControl m th f) .ok [])) ∧
      (1 < m.toNat ∨ 256 < th.toNat ∨ 8 ≤ f.toNat → exec (.traceControl m th f) s =
        .next (s.answered b (.traceControl m th f) .badOperand []))) ∧
    ∀ n : Byte, s.runs b (.readTrace n) → n.toNat = 0 ∨ 8 < n.toNat →
      exec (.readTrace n) s = .next (s.answered b (.readTrace n) .badOperand [])

/-! ### Holds -/

/-- The ways a hold ends. At point AFTER: RELEASE answers the record's response, FAIL answers FAULT, expiry follows the policy
and posts EXPIRY; nothing unparks. At point BEFORE, with nothing parked: RELEASE puts the slot in WAITING with the record's
write data, FAIL answers FAULT. One HOLD-END record is written (R57, R58, R62, R65, R68). -/
def Obligations.HoldEndsInItsOwnWay : Prop :=
  ∀ (s : State) (h : Hold) (x : Transaction), s.findHold h.id = some h → s.slot h.tag = some x →
    (∀ b : Batch, s.runs b (.release h.id) →
      (h.point = .after → exec (.release h.id) s = .next (State.answered (State.append
        { s with
          holds := s.holds.filter fun g => decide (g.id ≠ h.id)
          transit := s.transit.set h.tag (some { x with stage := .answering ⟨h.downstream.getD .done, h.data⟩ })
          answerQueue := s.answerQueue ++ [h.tag] }
        (h.endNote (some h.id) (if h.amended then .amendedReleased else .released))) b (.release h.id) .ok [])) ∧
      (h.point = .before → (∀ u y, s.slot u = some y → y.stage ≠ .parked) →
        exec (.release h.id) s = .next (State.answered (State.append
          { s with
            holds := s.holds.filter fun g => decide (g.id ≠ h.id)
            transit := s.transit.set h.tag (some { x with
              request := { x.request with data := if h.kind = .write then h.data else x.request.data }
              stage := .waiting }) }
          (h.endNote (some h.id) (if h.amended then .amendedReleased else .released))) b (.release h.id) .ok []))) ∧
    (∀ b : Batch, s.runs b (.fail h.id) →
      (h.point = .after ∨ ∀ u y, s.slot u = some y → y.stage ≠ .parked) →
      exec (.fail h.id) s = .next (State.answered (State.append
        { s with
          holds := s.holds.filter fun g => decide (g.id ≠ h.id)
          transit := s.transit.set h.tag (some { x with stage := .answering ⟨.fault, []⟩ })
          answerQueue := s.answerQueue ++ [h.tag] }
        (h.endNote (some h.id) .failed)) b (.fail h.id) .ok [])) ∧
    (s.porAsserted = false → s.dueHold = some h → h.policy = .fault →
      (h.point = .after ∨ ∀ u y, s.slot u = some y → y.stage ≠ .parked) →
      exec .holdExpiry s = .next (State.post .expiry h.id (State.append
        { s with
          holds := s.holds.filter fun g => decide (g.id ≠ h.id)
          transit := s.transit.set h.tag (some { x with stage := .answering ⟨.fault, []⟩ })
          answerQueue := s.answerQueue ++ [h.tag] }
        (h.endNote (some h.id) .expiredFaulted)))) ∧
    (s.porAsserted = false → s.dueHold = some h → h.policy = .proceed → h.point = .after →
      exec .holdExpiry s = .next (State.post .expiry h.id (State.append
        { s with
          holds := s.holds.filter fun g => decide (g.id ≠ h.id)
          transit := s.transit.set h.tag (some { x with stage := .answering ⟨h.downstream.getD .done, h.data⟩ })
          answerQueue := s.answerQueue ++ [h.tag] }
        (h.endNote (some h.id) .expiredProceeded))))

/-- RELEASE, FAIL and expiry end every BEFORE hold, whatever is parked behind it: its slot goes to WAITING with the record's
write data or to ANSWERING with FAULT; the unparking pass touches PARKED slots only, and each of them is then PARKED, WAITING
or HELD with the same position, request and disposition; the rest of the path and the link's addresses stay as they were
(R11, R12, R57, R62, R65, R68). -/
def Obligations.UnparkingTouchesParkedSlotsOnly : Prop :=
  ∀ (s : State) (b : Batch) (h : Hold) (x : Transaction) (i : Instr) (proceeds : Bool), s.PathSound → h.point = .before →
    s.findHold h.id = some h → s.slot h.tag = some x →
    (s.runs b (.release h.id) ∧ i = .release h.id ∧ proceeds = true) ∨
      (s.runs b (.fail h.id) ∧ i = .fail h.id ∧ proceeds = false) ∨
      (s.porAsserted = false ∧ s.dueHold = some h ∧ i = .holdExpiry ∧ proceeds = decide (h.policy = .proceed)) →
    ∃ t, exec i s = .next t ∧
      t.slot h.tag = some
        (if proceeds then
          { x with
            request := { x.request with data := if h.kind = .write then h.data else x.request.data }
            stage := .waiting }
        else { x with stage := .answering ⟨.fault, []⟩ }) ∧
      (∀ u y, u ≠ h.tag → s.slot u = some y → y.stage ≠ .parked → t.slot u = some y) ∧
      (∀ u, u ≠ h.tag → s.slot u = none → t.slot u = none) ∧
      (∀ u y, s.slot u = some y → y.stage = .parked →
        ∃ z, t.slot u = some z ∧ z.position = y.position ∧ z.request = y.request ∧ z.disposition = y.disposition ∧
          (z.stage = .parked ∨ z.stage = .waiting ∨ z.stage = .held)) ∧
      t.issueList = s.issueList ∧ t.injected = s.injected ∧ t.store = s.store ∧ t.table = s.table ∧
      t.eventLatch = s.eventLatch ∧ t.fairness = s.fairness ∧ t.linkAddress = s.linkAddress ∧
      t.groupAddress = s.groupAddress ∧ t.noHold = s.noHold ∧ t.tickCount = s.tickCount ∧ t.pulse = s.pulse

/-- AMEND's checks in their order, and its effect: the record's data is replaced and it is marked amended; at point BEFORE the
slot's write data with it, at point AFTER the downstream status becomes DONE (R63, R64). -/
def Obligations.AmendChecksAndReplacesData : Prop :=
  ∀ (s : State) (b : Batch) (id len : Byte) (data : List Byte), s.runs b (.amend id len data) →
    (¬ (len.toNat = 1 ∨ len.toNat = 2 ∨ len.toNat = 4 ∨ len.toNat = 16) →
      exec (.amend id len data) s = .next (s.answered b (.amend id len data) .badOperand [])) ∧
    (len.toNat = 1 ∨ len.toNat = 2 ∨ len.toNat = 4 ∨ len.toNat = 16 →
      (s.findHold id = none → exec (.amend id len data) s = .next (s.answered b (.amend id len data) .noHold [])) ∧
      ∀ h, s.findHold id = some h →
        ((h.point = .before ∧ h.kind ≠ .write) ∨ (h.point = .after ∧ h.kind = .write) →
          exec (.amend id len data) s = .next (s.answered b (.amend id len data) .badKind [])) ∧
        ((h.point = .before ∧ h.kind = .write) ∨ (h.point = .after ∧ h.kind ≠ .write) →
          (len.toNat ≠ h.size.bytes →
            exec (.amend id len data) s = .next (s.answered b (.amend id len data) .badOperand [])) ∧
          (len.toNat = h.size.bytes →
            (h.point = .before → ∀ x, s.slot h.tag = some x → x.request.tag = h.tag →
              exec (.amend id len data) s = .next (State.answered
                { s with
                  holds := s.holds.map fun g => if g.id = h.id then { h with data := data, amended := true } else g
                  transit := s.transit.set h.tag (some { x with request := { x.request with data := data } }) }
                b (.amend id len data) .ok [])) ∧
            (h.point = .after → exec (.amend id len data) s = .next (State.answered
              { s with holds := s.holds.map fun g =>
                  if g.id = h.id then { h with data := data, amended := true, downstream := some .done } else g }
              b (.amend id len data) .ok [])))))

/-- EXTEND: units outside 1-4095 are answered BAD-OPERAND, an unknown id NO-HOLD, a record extended 8 times EXTEND-LIMIT;
otherwise the budget rises, cut to 4095, the extend count rises by one, and both are returned (R66, R165). -/
def Obligations.ExtendAddsUnits : Prop :=
  ∀ (s : State) (b : Batch) (id : Byte) (units : Half), s.runs b (.extend id units) →
    (units.toNat = 0 ∨ 4095 < units.toNat →
      exec (.extend id units) s = .next (s.answered b (.extend id units) .badOperand [])) ∧
    (1 ≤ units.toNat → units.toNat ≤ 4095 →
      (s.findHold id = none → exec (.extend id units) s = .next (s.answered b (.extend id units) .noHold [])) ∧
      ∀ h, s.findHold id = some h →
        (h.extended = 8 → exec (.extend id units) s = .next (s.answered b (.extend id units) .extendLimit [])) ∧
        (h.extended < 8 → exec (.extend id units) s = .next (State.answered
          { s with holds := s.holds.map fun g => if g.id = h.id then
              { h with remaining := min (h.remaining + units.toNat) 4095, extended := h.extended + 1 } else g }
          b (.extend id units) .ok
          (halfBytes (BitVec.ofNat 16 (min (h.remaining + units.toNat) 4095)) ++
            [BitVec.ofNat 8 (h.extended + 1)]))))

/-- SET-MODE sets no-hold mode as its operand gives, and any other operand is answered BAD-OPERAND (R166). EVENT-CLEAR sets
the event latch, which EVT follows, to 0 whether or not it was set (R169). Both run in group and broadcast batches. -/
def Obligations.SetModeAndEventClear : Prop :=
  ((∀ (s : State) (b : Batch) (m : Byte), s.runs b (.setMode m) →
    (m = 0 → exec (.setMode m) s = .next (State.answered { s with noHold := false } b (.setMode m) .ok [])) ∧
    (m = 1 → exec (.setMode m) s = .next (State.answered { s with noHold := true } b (.setMode m) .ok [])) ∧
    (m ≠ 0 → m ≠ 1 → exec (.setMode m) s = .next (s.answered b (.setMode m) .badOperand []))) ∧
  (∀ s : State, s.noHold = true → s.holdAnswer = .suppressed) ∧
  (∀ s : State, s.noHold = false → s.holdAnswer ≠ .suppressed) ∧
  ∀ (b : Batch) (m : Byte), b.skips (.setMode m) = false) ∧
  (∀ (s : State) (b : Batch), s.runs b .eventClear →
    exec .eventClear s = .next (State.answered { s with eventLatch := false } b .eventClear .ok [])) ∧
  (∀ s : State, s.evt = s.eventLatch) ∧
  (∀ b : Batch, b.skips .eventClear = false) ∧
  ∀ (s : State) (late : Bool) (r : Request) (data : List Byte),
    (∃ i ∈ firedEntries s.table late r data, s.table[i].config.signal = true) →
    (s.evaluated late r data).eventLatch = true

/-- A new hold is given the first id from the next hold id on that no record in the queue has, and a new injected access the
first from the next access id on, never 0 (R51, R103). -/
def Obligations.NewIdsAreTheFirstUnused : Prop :=
  (∀ s : State, s.holds.length ≤ 4 → ∃ k, k ≤ 4 ∧ s.newHoldId = s.nextHoldId + BitVec.ofNat 8 k ∧
    (∀ h ∈ s.holds, h.id ≠ s.newHoldId) ∧
    ∀ j, j < k → ∃ h ∈ s.holds, h.id = s.nextHoldId + BitVec.ofNat 8 j) ∧
  (∀ s : State, s.injected.length ≤ 2 → s.nextAccessId ≠ 0 → s.newAccessId ≠ 0 ∧
    (∀ a ∈ s.injected, a.id ≠ s.newAccessId) ∧
    (s.newAccessId = s.nextAccessId ∨
      (∃ a ∈ s.injected, a.id = s.nextAccessId) ∧
        (s.newAccessId = nextAccess s.nextAccessId ∨
          (∃ a ∈ s.injected, a.id = nextAccess s.nextAccessId) ∧
            s.newAccessId = nextAccess (nextAccess s.nextAccessId)))) ∧
  nextAccess 255 = 1 ∧ ∀ i : Byte, i ≠ 255 → nextAccess i = i + 1

/-! ### Injected accesses -/

/-- PEEK and POKE are checked in this order: size and alignment (BAD-OPERAND), room (QUEUE-FULL), a PARKED or HELD
transaction of the same granule with one of the two a write (HAZARD); one that passes joins the queue in WAITING and its id
is the result (R103 to R106). -/
def Obligations.InjectedAccessesAreCheckedAndQueued : Prop :=
  (∀ (s : State) (addr : Word) (w : Bool), s.hazard addr w = true ↔
    ∃ u y, s.slot u = some y ∧ (y.stage = .parked ∨ y.stage = .held) ∧
      y.request.addr.toNat / 64 = addr.toNat / 64 ∧ (y.request.kind = .write ∨ w = true)) ∧
  ∀ (s : State) (b : Batch) (addr : Word) (z : Byte) (data : List Byte) (k : AccessKind) (i : Instr) (c : Command),
    ((k = .peek ∧ i = .peek addr z ∧ c = .peek addr z) ∨ (k = .poke ∧ i = .poke addr z data ∧ c = .poke addr z data)) →
    s.runs b c →
    (¬ (z.toNat = 1 ∨ z.toNat = 2 ∨ z.toNat = 4) → exec i s = .next (s.answered b c .badOperand [])) ∧
    ∀ sz, accessSize z = some sz → (z.toNat = sz.bytes) ∧
      (addr.toNat % sz.bytes ≠ 0 → exec i s = .next (s.answered b c .badOperand [])) ∧
      (addr.toNat % sz.bytes = 0 →
        (2 ≤ s.injected.length → exec i s = .next (s.answered b c .queueFull [])) ∧
        (s.injected.length < 2 →
          (s.hazard addr (decide (k = .poke)) = true → exec i s = .next (s.answered b c .hazard [])) ∧
          (s.hazard addr (decide (k = .poke)) = false → exec i s = .next (State.answered
            { s with
              injected := s.injected ++ [⟨s.newAccessId, k, addr, sz, if k = .poke then data else [], .waiting⟩]
              nextAccessId := nextAccess s.newAccessId } b c .ok [s.newAccessId]))))

/-- ACCESS-RESULT: NO-ACCESS without a record, NOT-DONE for one in WAITING or ISSUED, and for a finished one its image, byte by
byte, with the record removed (R110, R168, R187). -/
def Obligations.AccessResultCollectsFinishedRecords : Prop :=
  ∀ (s : State) (b : Batch) (id : Byte), s.runs b (.accessResult id) →
    (s.findAccess id = none → exec (.accessResult id) s = .next (s.answered b (.accessResult id) .noAccess [])) ∧
    ∀ a, s.findAccess id = some a →
      (a.state = .waiting ∨ a.state = .issued →
        exec (.accessResult id) s = .next (s.answered b (.accessResult id) .notDone [])) ∧
      (a.state = .done ∨ a.state = .faulted →
        exec (.accessResult id) s = .next (State.answered
          { s with injected := s.injected.filter fun g => decide (g.id ≠ id) } b (.accessResult id) .ok a.image) ∧
        AccessImageOf a a.image)

/-! ### Ticks and reset lines -/

/-- A tick adds one to the tick count and to the divider, whose tenth makes a budget step due, takes one from a pulse and
measures the pause of the link; the budget step takes one unit from every record; a pulse at 0 ends (R67, R175, R178; the
order of a tick's work and the pause's count are the model's, log entries 5 and 6). -/
def Obligations.TickAndItsDueSteps : Prop :=
  (∀ (s : State) (bitSlot : Bool), s.ready → exec (.tick bitSlot) s = .next { s with
    tickCount := s.tickCount + 1
    divider := if s.divider = 9 then 0 else s.divider + 1
    budgetDue := decide (s.divider = 9)
    pulse := s.pulse.map (· - 1)
    gap := if bitSlot then 1 else min (s.gap + 1) 2001 }) ∧
  (∀ s : State, s.porAsserted = false → s.budgetDue = true → exec .budgetStep s = .next { s with
    budgetDue := false
    holds := s.holds.map fun h => { h with remaining := h.remaining - 1 } }) ∧
  ∀ s : State, s.porAsserted = false → s.pulse = some 0 →
    s.rqrstOut = false ∧ exec .pulseEnd s = .next { s with pulse := none }

/-- A requester reset, begun by RQRST_IN or by the start of a pulse: a SYSTEM record and a DROPPED record for each hold are
sent, every slot is FREE but those whose access is outstanding, which are ORPHAN, the answer and hold queues are empty and
HOLD is cleared; nothing else changes, and a request held back at the port stays presented. A restarted pulse and a
deasserted line begin none (R5, R23, R71, R144, R170, R177 to R179); RQRST_IN_ASSERTED with the line asserted already changes
nothing (the model's choice, log entry 1). -/
def Obligations.RequesterResetClearsThePath : Prop :=
  (∀ s : State, s.ready → s.rqrstIn = false →
    exec .rqrstInAsserted s = .next { s.requesterReset with rqrstIn := true }) ∧
  (∀ s : State, s.ready → s.rqrstIn = true → exec .rqrstInAsserted s = .next s) ∧
  (∀ s : State, s.ready → exec .rqrstInDeasserted s = .next { s with rqrstIn := false }) ∧
  (∀ (s : State) (b : Batch), s.runs b .resetRequester → s.pulse = none →
    exec .resetRequester s = .next (State.answered { s.requesterReset with pulse := some 100 } b .resetRequester .ok [])) ∧
  (∀ (s : State) (b : Batch) (n : Nat), s.runs b .resetRequester → s.pulse = some (n + 1) →
    exec .resetRequester s = .next (State.answered { s with pulse := some 100 } b .resetRequester .ok [])) ∧
  ∀ s : State,
    s.requesterReset = { State.appendAll
        (⟨.system, none, none, none, [], .requesterReset⟩ :: s.holds.map fun h => h.endNote (some h.id) .dropped) s with
      transit := s.requesterReset.transit
      answerQueue := []
      holds := []
      attention := (State.appendAll
        (⟨.system, none, none, none, [], .requesterReset⟩ :: s.holds.map fun h => h.endNote (some h.id) .dropped)
        s).attention.clear .hold } ∧
    (∀ u x, s.slot u = some x → x.stage = .issued ∨ x.stage = .orphan →
      s.requesterReset.slot u = some { x with stage := .orphan }) ∧
    ∀ u, (∀ x, s.slot u = some x → x.stage ≠ .issued ∧ x.stage ≠ .orphan) → s.requesterReset.slot u = none

/-! ### Commands of the board and the link -/

/-- SET-GROUP and ATTENTION-CONTROL set what their operand gives, or are answered BAD-OPERAND; FORGET is answered OK and only
marks that it has run (R135, R136, R137, R143). -/
def Obligations.LinkCommandsSetTheirOperand : Prop :=
  ∀ (s : State) (b : Batch),
    (∀ g : Byte, s.runs b (.setGroup g) →
      (g = 0 → exec (.setGroup g) s = .next (State.answered { s with groupAddress := none } b (.setGroup g) .ok [])) ∧
      (16 ≤ g.toNat → g.toNat ≤ 23 → exec (.setGroup g) s =
        .next (State.answered { s with groupAddress := some g } b (.setGroup g) .ok [])) ∧
      ((1 ≤ g.toNat ∧ g.toNat ≤ 15) ∨ 24 ≤ g.toNat → exec (.setGroup g) s =
        .next (s.answered b (.setGroup g) .badOperand []))) ∧
    (∀ e : Byte, s.runs b (.attentionControl e) →
      (e.toNat ≤ 1 → exec (.attentionControl e) s =
        .next (State.answered { s with attentionEnable := decide (e = 1) } b (.attentionControl e) .ok [])) ∧
      (1 < e.toNat → exec (.attentionControl e) s = .next (s.answered b (.attentionControl e) .badOperand []))) ∧
    (s.runs b .forget → exec .forget s = .next (State.answered { s with forgetPending := true } b .forget .ok []))

/-- CLEAR-UNIT's five events, in their order: the trace unit, the hold controller (after which, on a sound path, no hold is
left and no slot is PARKED or HELD), the match table, the overlay store, and the event latch, with which the command is
answered OK (R48, R72, R84, R101, R171). -/
def Obligations.ClearUnitIsFiveEvents : Prop :=
  (∀ (s : State) (b : Batch), s.runs b .clearUnit → exec .clearUnit s = .next { s with
    log := [], nextSeq := 0, lost := 0, traceMode := .stop, threshold := 0, protocolRecords := false
    batch := some { b with clearing := some .holds } }) ∧
  (∀ (s : State) (b : Batch), s.ready → s.batch = some b → b.clearing = some .holds → s.PathSound → s.ParkingSound →
    ∃ t, exec .clearUnitHolds s = .next t ∧ t.holds = [] ∧ t.refusedHolds = 0 ∧ t.noHold = false ∧
      t.nextHoldId = s.nextHoldId ∧ t.batch = some { b with clearing := some .matchTable } ∧
      (∀ u x, t.slot u = some x → x.stage ≠ .parked ∧ x.stage ≠ .held ∧ ∀ r, x.stage ≠ .heldResponse r) ∧
      t.issueList = s.issueList ∧ t.table = s.table ∧ t.store = s.store ∧ t.eventLatch = s.eventLatch ∧
      t.attention.hold = s.attention.hold ∧ t.attention.expiry = s.attention.expiry) ∧
  (∀ (s : State) (b : Batch), s.ready → s.batch = some b → b.clearing = some .matchTable →
    ∃ t, exec .clearUnitMatchTable s = .next t ∧
      (∀ i : EntryIndex, t.table[i] = ⟨EntryConfig.powerOn, false, false, 0⟩) ∧
      t = { s with table := t.table, batch := some { b with clearing := some .overlay } }) ∧
  (∀ (s : State) (b : Batch), s.ready → s.batch = some b → b.clearing = some .overlay →
    exec .clearUnitOverlay s = .next { s with store := [], batch := some { b with clearing := some .eventLatch } }) ∧
  ∀ (s : State) (b : Batch), s.ready → s.batch = some b → b.clearing = some .eventLatch →
    exec .clearUnitEventLatch s = .next (State.answered { s with eventLatch := false } b .clearUnit .ok [])

/-! ### The executor -/

/-- An answer adds one entry in an addressed batch and none in another; a status other than OK stops the batch unless
continue-on-error is set, and NO-ROOM in any case. A command outside the broadcast-allowed set is skipped in a group batch,
one whose largest entry does not fit is answered NO-ROOM; neither has an effect. The commands of R146 are answered
BAD-OPCODE and BAD-OPERAND without effect. A command that is not the batch's next changes nothing (R123, R146, R148, R149,
R150; log entry 1). -/
def Obligations.ExecutorAnswersEachCommandOnce : Prop :=
  (∀ (b : Batch) (c : Command) (st : CmdStatus) (res : List Byte),
    (b.answer c st res).position = b.position + 1 ∧ (b.answer c st res).commands = b.commands ∧
    (b.addressed = true → (b.answer c st res).entries = b.entries ++ [⟨c.echo, st, res⟩]) ∧
    (b.addressed = false → (b.answer c st res).entries = b.entries) ∧
    ((b.answer c st res).stopped = true ↔
      b.stopped = true ∨ (st ≠ .ok ∧ b.continueOnError = false) ∨ st = .noRoom)) ∧
  (∀ (i : Instr) (c : Command) (s : State) (b : Batch), i.command? = some c → s.ready → s.batch = some b →
    (b.turn c = true → b.addressed = false → broadcastAllowed c = false →
      exec i s = .next (s.answered b c .notRun [])) ∧
    (b.turn c = true → b.addressed = true → b.room < largestEntry c → exec i s = .next (s.answered b c .noRoom [])) ∧
    (b.turn c = false → exec i s = .next s)) ∧
  ∀ (s : State) (b : Batch) (n : Byte),
    (s.runs b (.badOpcode n) → exec (.badOpcode n) s = .next (s.answered b (.badOpcode n) .badOpcode [])) ∧
    (s.runs b (.cutCommand n) → exec (.cutCommand n) s = .next (s.answered b (.cutCommand n) .badOperand [])) ∧
    (s.runs b (.surplusCommand n) →
      exec (.surplusCommand n) s = .next (s.answered b (.surplusCommand n) .badOperand []))

/-- A command that runs is answered once; one answered with a status other than OK changes nothing but the batch and returns
no results (R154). -/
def Obligations.RefusedCommandChangesNothing : Prop :=
  ∀ (i : Instr) (c : Command) (s : State) (b : Batch), i.command? = some c → c ≠ .clearUnit → s.runs b c →
    ∃ (t : State) (st : CmdStatus) (res : List Byte), exec i s = .next t ∧ t.batch = some (b.answer c st res) ∧
      (st ≠ .ok → res = [] ∧ t = s.answered b c st [])

/-- The end of a batch. An addressed one: NOT-RUN entries for what was left, status OK if every entry is OK and PARTIAL
otherwise, the response kept, and sent if the receiver still runs the batch. A group one builds nothing. A FORGET takes its
effect when no response follows (R113, R123, R135, R136, R149, R151, R152). A unit that responds pulls LDA low in the start
slot and then sends status, length, payload and check byte, most significant bit first, and releases the line after them and
while it has nothing ready (R112, R121). That the pause of the response is measured from its start, gap at 0, is the model's
choice (log entry 6). -/
def Obligations.BatchEndBuildsTheResponse : Prop :=
  (∀ (s : State) (b : Batch), s.ready → s.batch = some b → b.clearing = none →
    b.stopped = true ∨ b.commands.length ≤ b.position →
    (b.allEntries = b.entries ++ (b.commands.drop b.position).map fun c => ⟨c.echo, .notRun, []⟩) ∧
    (b.response.status = if ∀ e ∈ b.allEntries, e.status = .ok then .ok else .part) ∧
    b.response.payload = b.allEntries.flatMap (fun e => e.echo :: e.status.code :: e.results) ∧
    b.response.check = crc8 (b.response.status.code :: BitVec.ofNat 8 b.response.payload.length :: b.response.payload) ∧
    (b.addressed = true → s.receiver = .running → exec .batchEnd s = .next { s with
      batch := none, kept := some b.response, receiver := .responding b.response, gap := 0 }) ∧
    (b.addressed = true → s.receiver ≠ .running → exec .batchEnd s = .next { s with
      batch := none, kept := some b.response
      linkAddress := if s.forgetPending then none else s.linkAddress
      groupAddress := if s.forgetPending then none else s.groupAddress
      attention := if s.forgetPending then { s.attention with join := true } else s.attention
      forgetPending := false }) ∧
    (b.addressed = false → exec .batchEnd s = .next { s with
      batch := none
      receiver := if s.receiver = .running then .idle else s.receiver
      linkAddress := if s.forgetPending then none else s.linkAddress
      groupAddress := if s.forgetPending then none else s.groupAddress
      attention := if s.forgetPending then { s.attention with join := true } else s.attention
      forgetPending := false })) ∧
  (∀ (s : State) (r : Response), s.porAsserted = false → s.receiver = .responding r →
    (∀ n, n < 8 * (r.payload.length + 3) + 1 → s.ldaOut (n + 1) =
      (false :: bytesBits ([r.status.code, BitVec.ofNat 8 r.payload.length] ++ r.payload ++ [r.check])).getD n true) ∧
    ∀ n, 8 * (r.payload.length + 3) + 1 < n → s.ldaOut n = true) ∧
  (∀ (s : State) (n : Nat), s.receiver = .idle ∨ s.receiver = .receiving ∨ s.receiver = .running ∨ s.porAsserted = true →
    s.ldaOut n = true) ∧
  ∀ (bs : List Byte) (k : Nat), k < 8 * bs.length → (bytesBits bs)[k]? = some ((byteAt bs (k / 8)).testBit (7 - k % 8))

/-- The commands of a batch are found again from their bytes: for up to sixteen commands with their operands at any value,
dividing the bytes of their opcodes and operands gives the commands back (R145, R184). Division stops early at a byte that
names no command and at a command the payload cuts off, which are then the last, and after sixteen commands the first byte
left stands for the surplus (R146). -/
def Obligations.DivisionFindsEncodedCommands : Prop :=
  (∀ cs : List Command, cs.length ≤ 16 →
    (∀ c ∈ cs, c.wellFormed = true ∧ (∀ n, c ≠ .badOpcode n) ∧ (∀ n, c ≠ .cutCommand n) ∧ ∀ n, c ≠ .surplusCommand n) →
    dividePayload (cs.flatMap Command.encode) = cs) ∧
  ∀ (cs : List Command) (n : Byte) (rest : List Byte),
    (∀ c ∈ cs, c.wellFormed = true ∧ (∀ n, c ≠ .badOpcode n) ∧ (∀ n, c ≠ .cutCommand n) ∧ ∀ n, c ≠ .surplusCommand n) →
    (cs.length < 16 → namesCommand n = false →
      dividePayload (cs.flatMap Command.encode ++ n :: rest) = cs ++ [.badOpcode n]) ∧
    (cs.length < 16 → takeCommand n rest = .cut →
      dividePayload (cs.flatMap Command.encode ++ n :: rest) = cs ++ [.cutCommand n]) ∧
    (cs.length = 16 → dividePayload (cs.flatMap Command.encode ++ n :: rest) = cs ++ [.surplusCommand n])

/-! ### The tool link -/

/-- The check byte: a register that starts at 0xFF, takes a byte by exclusive OR and eight shifts with 0x2F, and comes to 0
over a string and its check byte and over no other byte; a pod frame's check byte covers destination, control, length and
payload (R115). -/
def Obligations.CheckByteIsTheCrcOfTheFrame : Prop :=
  crc8 [] = 0xFF ∧
  (∀ (bs : List Byte) (b : Byte), crc8 (bs ++ [b]) =
    Nat.iterate (fun r : Byte => (r <<< 1) ^^^ (if r.getLsbD 7 then 0x2F else 0)) 8 (crc8 bs ^^^ b)) ∧
  (∀ (bs : List Byte) (b : Byte), crc8 (bs ++ [b]) = 0 ↔ b = crc8 bs) ∧
  (∀ f : Frame, f.good = true ↔
    f.check = crc8 (f.dest :: f.control :: BitVec.ofNat 8 f.payload.length :: f.payload)) ∧
  ∀ (st : FrameStatus) (p : List Byte),
    (buildResponse st p).check = crc8 (st.code :: BitVec.ofNat 8 p.length :: p)

/-- What a unit does with a frame, by its check byte, kind and destination and the addresses the unit holds (R118, R119,
R183). -/
def Obligations.FrameActionFollowsTheTable : Prop :=
  ∀ (s : State) (f : Frame),
    (f.good = false → s.linkAddress = some f.dest → s.frameAction f = .reject) ∧
    (f.good = false → s.linkAddress ≠ some f.dest → s.frameAction f = .nothing) ∧
    (f.good = true →
      (frameKind f.control = some .command → 1 ≤ f.dest.toNat → f.dest.toNat ≤ 15 →
        s.frameAction f = if s.linkAddress = some f.dest then .command else .nothing) ∧
      (frameKind f.control = some .command → 16 ≤ f.dest.toNat → f.dest.toNat ≤ 23 →
        s.frameAction f = if s.groupAddress = some f.dest then .group else .nothing) ∧
      (frameKind f.control = some .command → f.dest = 0 → s.frameAction f = .group) ∧
      (frameKind f.control = some .command → 24 ≤ f.dest.toNat → s.frameAction f = .nothing) ∧
      (frameKind f.control = some .readback → 1 ≤ f.dest.toNat → f.dest.toNat ≤ 15 →
        s.frameAction f = if s.linkAddress = some f.dest then .readback else .nothing) ∧
      (frameKind f.control = some .readback → f.dest = 0 ∨ 16 ≤ f.dest.toNat → s.frameAction f = .nothing) ∧
      (∀ a, frameKind f.control = some .enum → f.dest = 0 → f.payload = [a] → s.frameAction f = .round (.enum a)) ∧
      (frameKind f.control = some .enum → f.dest ≠ 0 ∨ f.payload.length ≠ 1 → s.frameAction f = .nothing) ∧
      (frameKind f.control = some .poll → f.dest = 0 → f.payload = [] → s.frameAction f = .round .poll) ∧
      (frameKind f.control = some .poll → f.dest ≠ 0 ∨ f.payload ≠ [] → s.frameAction f = .nothing) ∧
      (frameKind f.control = none → s.frameAction f = .nothing)) ∧
    ∀ c : Byte, (frameKind c = some .command ↔ c = 0x01 ∨ c = 0x81) ∧ (frameKind c = some .readback ↔ c = 0x02 ∨ c = 0x82) ∧
      (frameKind c = some .enum ↔ c = 0x03 ∨ c = 0x83) ∧ (frameKind c = some .poll ↔ c = 0x04 ∨ c = 0x84)

/-- A frame whose check byte is taken with no batch in progress, and a frame that waited for a batch to end, are acted on: a
response of REJECT-CHECK, the kept response or EMPTY, a batch, a round's ready phase, or nothing. A wrong check byte is
counted when it is taken, up to 255 (R113, R118, R120, R123, R124, R125, R128). The row names the case; the bytes decide it
(log entry 10). That the pause is measured anew, gap at 0, from a check byte and from the start of a response is the model's
choice (log entry 6). -/
def Obligations.TakenFrameHasItsEffect : Prop :=
  ∀ (s : State) (f : Frame), s.ready → s.batch = none →
    (∀ row ∈ [Instr.badCheckFrame f, .commandFrame f, .groupCommandFrame f, .readbackFrame f, .enumFrame f, .pollFrame f,
        .frameNotActedOn f], s.receiver = .receiving →
      exec row s = .next (State.act f
        { s with gap := 0, checkErrors := if f.good then s.checkErrors else min (s.checkErrors + 1) 255 })) ∧
    (s.receiver = .waiting f → exec .deferredFrameAction s = .next (s.act f)) ∧
    (s.frameAction f = .reject →
      s.act f = { s with receiver := .responding (buildResponse .rejectCheck []), gap := 0 }) ∧
    (s.frameAction f = .command → s.act f = { s with
      kept := none, receiver := .running
      batch := some ⟨dividePayload f.payload, 0, f.control.getLsbD 7, true, [], false, none⟩ }) ∧
    (s.frameAction f = .group → s.act f = { s with
      receiver := .running
      batch := some ⟨dividePayload f.payload, 0, f.control.getLsbD 7, false, [], false, none⟩ }) ∧
    (s.frameAction f = .readback → s.act f = { s with
      receiver := .responding (match s.kept with | some r => r | none => buildResponse .empty []), gap := 0 }) ∧
    (∀ k, s.frameAction f = .round k → s.act f = { s with receiver := .ready k }) ∧
    (s.frameAction f = .nothing → s.act f = { s with receiver := .idle })

/-- A frame start takes the receiver to RECEIVING from every state, and ends a response, with which a FORGET takes its effect.
A frame taken while a batch is in progress waits for its end (R113, R122, R125, R135). That the pause is measured anew, gap at
0, from a frame start and from a check byte is the model's choice (log entry 6). -/
def Obligations.FrameStartAndWaitingFrames : Prop :=
  (∀ s : State, s.ready → s.receiver.isResponding = false →
    exec .frameStart s = .next { s with receiver := .receiving, gap := 0 }) ∧
  (∀ (s : State) (r : Response), s.ready → s.receiver = .responding r →
    exec .frameStart s = .next { s with
      receiver := .receiving, gap := 0
      linkAddress := if s.forgetPending then none else s.linkAddress
      groupAddress := if s.forgetPending then none else s.groupAddress
      attention := if s.forgetPending then { s.attention with join := true } else s.attention
      forgetPending := false }) ∧
  ∀ (s : State) (f : Frame), s.ready → s.batch.isSome = true →
    (s.receiver = .receiving → ∀ row ∈ [Instr.badCheckFrame f, .commandFrame f, .groupCommandFrame f, .readbackFrame f,
        .enumFrame f, .pollFrame f, .frameNotActedOn f],
      exec row s = .next { s with
        receiver := .waiting f, gap := 0
        checkErrors := if f.good then s.checkErrors else min (s.checkErrors + 1) 255 }) ∧
    (s.receiver = .waiting f → exec .deferredFrameAction s = .next s)

/-- A pause of more than 2000 ticks discards a partial frame without counting it, abandons a response, and ends a part in a
round; a shorter one does nothing. A length byte above 240 ends the frame without counting it. A response sent in full ends
as an abandoned one does (R116, R117, R121, R122, R130, R135). -/
def Obligations.GapsOverlengthAndResponseEnd : Prop :=
  (∀ s : State, s.porAsserted = false →
    (s.gap ≤ 2000 → exec .gapAbort s = .next s ∧ exec .responseGapAbandon s = .next s ∧
      exec .roundGapAbandon s = .next s) ∧
    (2000 < s.gap →
      (s.receiver = .receiving → exec .gapAbort s = .next { s with receiver := .idle }) ∧
      ((∃ p, s.receiver = .round p) ∨ (∃ k, s.receiver = .ready k) ∨
          (∃ f k, s.receiver = .waiting f ∧ roundOf f = some k) →
        exec .roundGapAbandon s = .next { s with receiver := .idle }) ∧
      ∀ r, s.receiver = .responding r → exec .responseGapAbandon s = .next { s with
        receiver := .idle
        linkAddress := if s.forgetPending then none else s.linkAddress
        groupAddress := if s.forgetPending then none else s.groupAddress
        attention := if s.forgetPending then { s.attention with join := true } else s.attention
        forgetPending := false })) ∧
  (∀ (s : State) (d c n : Byte), s.ready → s.receiver = .receiving → 240 < n.toNat →
    exec (.overlengthFrame d c n) s = .next { s with receiver := .idle }) ∧
  ∀ (s : State) (r : Response), s.ready → s.receiver = .responding r →
    exec .responseSent s = .next { s with
      receiver := .idle
      linkAddress := if s.forgetPending then none else s.linkAddress
      groupAddress := if s.forgetPending then none else s.groupAddress
      attention := if s.forgetPending then { s.attention with join := true } else s.attention
      forgetPending := false }

/-- The start of a round: a unit without a link address takes part in an ENUM round that offers 1-15; a unit with attention
enabled and a flag pending takes part in a POLL round with a copy of its highest-ranked flag; any other goes to IDLE, be it in
the ready phase alone or still in RUNNING with the round's frame after its batch has ended. A unit that waits in RUNNING for a
batch pulls LDA low and so keeps the ready phase going, and any other releases it (R128, R131, R139). That the pause is measured
anew, gap at 0, from the start of the round proper is the model's choice (log entry 6), and that ROUND_START with a batch in
progress changes nothing is too (log entry 1). -/
def Obligations.RoundStartDecidesTakingPart : Prop :=
  (∀ (s : State) (a : Byte), s.ready → s.awaitsRound (.enum a) → s.batch = none →
    (s.linkAddress = none → 1 ≤ a.toNat → a.toNat ≤ 15 →
      exec .roundStart s = .next { s with receiver := .round (.enum a), gap := 0 }) ∧
    (s.linkAddress ≠ none ∨ a.toNat = 0 ∨ 15 < a.toNat → exec .roundStart s = .next { s with receiver := .idle })) ∧
  (∀ s : State, s.ready → s.awaitsRound .poll → s.batch = none →
    (s.attentionEnable = true → s.attention.join = true →
      exec .roundStart s = .next { s with receiver := .round (.poll .join 0 false), gap := 0 }) ∧
    (∀ d, s.attentionEnable = true → s.attention.join = false → s.attention.hold = some d →
      exec .roundStart s = .next { s with receiver := .round (.poll .hold d false), gap := 0 }) ∧
    (∀ d, s.attentionEnable = true → s.attention.join = false → s.attention.hold = none → s.attention.expiry = some d →
      exec .roundStart s = .next { s with receiver := .round (.poll .expiry d false), gap := 0 }) ∧
    (∀ d, s.attentionEnable = true → s.attention.join = false → s.attention.hold = none → s.attention.expiry = none →
      s.attention.trace = some d →
      exec .roundStart s = .next { s with receiver := .round (.poll .trace d false), gap := 0 }) ∧
    (s.attentionEnable = false ∨ s.attention = ⟨false, none, none, none⟩ →
      exec .roundStart s = .next { s with receiver := .idle })) ∧
  (∀ (s : State) (f : Frame) (k : RoundKind), s.ready → s.receiver = .waiting f → roundOf f = some k →
    s.batch.isSome = true →
    exec .roundStart s = .next s ∧ s.holdsReadyPhase = true ∧ ∀ n, s.ldaOut n = false) ∧
  (∀ (s : State) (k : RoundKind) (n : Nat), s.awaitsRound k → s.batch = none →
    s.holdsReadyPhase = false ∧ s.ldaOut n = true) ∧
  ∀ (s : State) (f : Frame) (k : RoundKind), roundOf f = some k ↔ s.frameAction f = .round k

/-- A unit that completes an ENUM round adopts the offered address and clears JOIN; one that completes a POLL round clears the
flag it copied unless that was posted again; one that sent a 1 and reads a 0 has lost and changes nothing else. The bits it
sends are its identity, revision and their check byte, or its address, kind and detail and theirs, and it pulls LDA low for
each 0 of them (R112, R129, R132, R133, R140, R142, R189). What LDA reads comes from outside (log entry 16), and a loss in a slot
in which the unit sends no 1 changes nothing (log entry 1). -/
def Obligations.RoundsCompleteOrAreLost : Prop :=
  (∀ (s : State) (a : Byte), s.ready → s.receiver = .round (.enum a) →
    exec .enumComplete s = .next { s with
      linkAddress := some a, attention := { s.attention with join := false }, receiver := .idle } ∧
    s.roundBits = bytesBits ([0x32, 0x14] ++ wordBytes s.serial ++ [s.revision,
      crc8 ([0x32, 0x14] ++ wordBytes s.serial ++ [s.revision])]) ∧ s.roundBits.length = 64) ∧
  (∀ (s : State) (f : Flag) (d : Byte), s.ready → s.receiver = .round (.poll f d false) →
    exec .pollComplete s = .next { s with attention := s.attention.clear f, receiver := .idle } ∧
    s.roundBits = (byteBits (s.linkAddress.getD 0)).drop 4 ++
      bytesBits [f.kindByte, d, crc8 [s.linkAddress.getD 0, f.kindByte, d]] ∧ s.roundBits.length = 28) ∧
  (∀ (s : State) (f : Flag) (d : Byte), s.ready → s.receiver = .round (.poll f d true) →
    exec .pollComplete s = .next { s with receiver := .idle }) ∧
  (∀ (s : State) (p : RoundPart) (n : Nat), s.porAsserted = false → s.receiver = .round p →
    s.ldaOut (n + 1) = s.roundBits.getD n true) ∧
  (∀ (f g : Flag) (d : Byte) (again : Bool), Receiver.notePost g (.round (.poll f d again)) =
    .round (.poll f d (again || decide (g = f)))) ∧
  (∀ (s : State) (n : Nat), s.ready → 1 ≤ n → s.roundBits[n - 1]? = some true →
    exec (.arbitrationLoss n) s = .next { s with receiver := .idle }) ∧
  ∀ (s : State) (n : Nat), s.ready → s.roundBits[n - 1]? ≠ some true ∨ n = 0 → exec (.arbitrationLoss n) s = .next s
end

