-- ==== Sys2Proof/Laws/State.lean ====
section
/-! SUPPORT. One lemma for each field of State and each named update of the model: what the field is after the update. Each
holds by unfolding, so no proof has to unfold an update to read a field. -/

namespace Sys2Proof.Machine

/-! ### `State.postIf` -/

@[simp] theorem State.postIf_porAsserted (c : Bool) (f : Flag) (d : Byte) (s : State) : (s.postIf c f d).porAsserted = s.porAsserted := rfl
@[simp] theorem State.postIf_rqrstIn (c : Bool) (f : Flag) (d : Byte) (s : State) : (s.postIf c f d).rqrstIn = s.rqrstIn := rfl
@[simp] theorem State.postIf_pulse (c : Bool) (f : Flag) (d : Byte) (s : State) : (s.postIf c f d).pulse = s.pulse := rfl
@[simp] theorem State.postIf_eventLatch (c : Bool) (f : Flag) (d : Byte) (s : State) : (s.postIf c f d).eventLatch = s.eventLatch := rfl
@[simp] theorem State.postIf_tickCount (c : Bool) (f : Flag) (d : Byte) (s : State) : (s.postIf c f d).tickCount = s.tickCount := rfl
@[simp] theorem State.postIf_transit (c : Bool) (f : Flag) (d : Byte) (s : State) : (s.postIf c f d).transit = s.transit := rfl
@[simp] theorem State.postIf_nextPosition (c : Bool) (f : Flag) (d : Byte) (s : State) : (s.postIf c f d).nextPosition = s.nextPosition := rfl
@[simp] theorem State.postIf_presented (c : Bool) (f : Flag) (d : Byte) (s : State) : (s.postIf c f d).presented = s.presented := rfl
@[simp] theorem State.postIf_answerQueue (c : Bool) (f : Flag) (d : Byte) (s : State) : (s.postIf c f d).answerQueue = s.answerQueue := rfl
@[simp] theorem State.postIf_issueList (c : Bool) (f : Flag) (d : Byte) (s : State) : (s.postIf c f d).issueList = s.issueList := rfl
@[simp] theorem State.postIf_fairness (c : Bool) (f : Flag) (d : Byte) (s : State) : (s.postIf c f d).fairness = s.fairness := rfl
@[simp] theorem State.postIf_table (c : Bool) (f : Flag) (d : Byte) (s : State) : (s.postIf c f d).table = s.table := rfl
@[simp] theorem State.postIf_holds (c : Bool) (f : Flag) (d : Byte) (s : State) : (s.postIf c f d).holds = s.holds := rfl
@[simp] theorem State.postIf_nextHoldId (c : Bool) (f : Flag) (d : Byte) (s : State) : (s.postIf c f d).nextHoldId = s.nextHoldId := rfl
@[simp] theorem State.postIf_refusedHolds (c : Bool) (f : Flag) (d : Byte) (s : State) : (s.postIf c f d).refusedHolds = s.refusedHolds := rfl
@[simp] theorem State.postIf_noHold (c : Bool) (f : Flag) (d : Byte) (s : State) : (s.postIf c f d).noHold = s.noHold := rfl
@[simp] theorem State.postIf_divider (c : Bool) (f : Flag) (d : Byte) (s : State) : (s.postIf c f d).divider = s.divider := rfl
@[simp] theorem State.postIf_budgetDue (c : Bool) (f : Flag) (d : Byte) (s : State) : (s.postIf c f d).budgetDue = s.budgetDue := rfl
@[simp] theorem State.postIf_store (c : Bool) (f : Flag) (d : Byte) (s : State) : (s.postIf c f d).store = s.store := rfl
@[simp] theorem State.postIf_log (c : Bool) (f : Flag) (d : Byte) (s : State) : (s.postIf c f d).log = s.log := rfl
@[simp] theorem State.postIf_nextSeq (c : Bool) (f : Flag) (d : Byte) (s : State) : (s.postIf c f d).nextSeq = s.nextSeq := rfl
@[simp] theorem State.postIf_lost (c : Bool) (f : Flag) (d : Byte) (s : State) : (s.postIf c f d).lost = s.lost := rfl
@[simp] theorem State.postIf_traceMode (c : Bool) (f : Flag) (d : Byte) (s : State) : (s.postIf c f d).traceMode = s.traceMode := rfl
@[simp] theorem State.postIf_threshold (c : Bool) (f : Flag) (d : Byte) (s : State) : (s.postIf c f d).threshold = s.threshold := rfl
@[simp] theorem State.postIf_protocolRecords (c : Bool) (f : Flag) (d : Byte) (s : State) : (s.postIf c f d).protocolRecords = s.protocolRecords := rfl
@[simp] theorem State.postIf_injected (c : Bool) (f : Flag) (d : Byte) (s : State) : (s.postIf c f d).injected = s.injected := rfl
@[simp] theorem State.postIf_nextAccessId (c : Bool) (f : Flag) (d : Byte) (s : State) : (s.postIf c f d).nextAccessId = s.nextAccessId := rfl
@[simp] theorem State.postIf_receiver (c : Bool) (f : Flag) (d : Byte) (s : State) :
    (s.postIf c f d).receiver = if c then s.receiver.notePost f else s.receiver := rfl
@[simp] theorem State.postIf_gap (c : Bool) (f : Flag) (d : Byte) (s : State) : (s.postIf c f d).gap = s.gap := rfl
@[simp] theorem State.postIf_linkAddress (c : Bool) (f : Flag) (d : Byte) (s : State) : (s.postIf c f d).linkAddress = s.linkAddress := rfl
@[simp] theorem State.postIf_groupAddress (c : Bool) (f : Flag) (d : Byte) (s : State) : (s.postIf c f d).groupAddress = s.groupAddress := rfl
@[simp] theorem State.postIf_attentionEnable (c : Bool) (f : Flag) (d : Byte) (s : State) : (s.postIf c f d).attentionEnable = s.attentionEnable := rfl
@[simp] theorem State.postIf_attention (c : Bool) (f : Flag) (d : Byte) (s : State) :
    (s.postIf c f d).attention = if c then s.attention.set f d else s.attention := rfl
@[simp] theorem State.postIf_kept (c : Bool) (f : Flag) (d : Byte) (s : State) : (s.postIf c f d).kept = s.kept := rfl
@[simp] theorem State.postIf_checkErrors (c : Bool) (f : Flag) (d : Byte) (s : State) : (s.postIf c f d).checkErrors = s.checkErrors := rfl
@[simp] theorem State.postIf_forgetPending (c : Bool) (f : Flag) (d : Byte) (s : State) : (s.postIf c f d).forgetPending = s.forgetPending := rfl
@[simp] theorem State.postIf_serial (c : Bool) (f : Flag) (d : Byte) (s : State) : (s.postIf c f d).serial = s.serial := rfl
@[simp] theorem State.postIf_revision (c : Bool) (f : Flag) (d : Byte) (s : State) : (s.postIf c f d).revision = s.revision := rfl
@[simp] theorem State.postIf_batch (c : Bool) (f : Flag) (d : Byte) (s : State) : (s.postIf c f d).batch = s.batch := rfl
@[simp] theorem State.postIf_freeCount (c : Bool) (f : Flag) (d : Byte) (s : State) : (s.postIf c f d).freeCount = s.freeCount := rfl
@[simp] theorem State.postIf_pending (c : Bool) (f : Flag) (d : Byte) (s : State) : (s.postIf c f d).pending = s.pending := rfl

/-! ### `State.post` -/

@[simp] theorem State.post_porAsserted (f : Flag) (d : Byte) (s : State) : (s.post f d).porAsserted = s.porAsserted := rfl
@[simp] theorem State.post_rqrstIn (f : Flag) (d : Byte) (s : State) : (s.post f d).rqrstIn = s.rqrstIn := rfl
@[simp] theorem State.post_pulse (f : Flag) (d : Byte) (s : State) : (s.post f d).pulse = s.pulse := rfl
@[simp] theorem State.post_eventLatch (f : Flag) (d : Byte) (s : State) : (s.post f d).eventLatch = s.eventLatch := rfl
@[simp] theorem State.post_tickCount (f : Flag) (d : Byte) (s : State) : (s.post f d).tickCount = s.tickCount := rfl
@[simp] theorem State.post_transit (f : Flag) (d : Byte) (s : State) : (s.post f d).transit = s.transit := rfl
@[simp] theorem State.post_nextPosition (f : Flag) (d : Byte) (s : State) : (s.post f d).nextPosition = s.nextPosition := rfl
@[simp] theorem State.post_presented (f : Flag) (d : Byte) (s : State) : (s.post f d).presented = s.presented := rfl
@[simp] theorem State.post_answerQueue (f : Flag) (d : Byte) (s : State) : (s.post f d).answerQueue = s.answerQueue := rfl
@[simp] theorem State.post_issueList (f : Flag) (d : Byte) (s : State) : (s.post f d).issueList = s.issueList := rfl
@[simp] theorem State.post_fairness (f : Flag) (d : Byte) (s : State) : (s.post f d).fairness = s.fairness := rfl
@[simp] theorem State.post_table (f : Flag) (d : Byte) (s : State) : (s.post f d).table = s.table := rfl
@[simp] theorem State.post_holds (f : Flag) (d : Byte) (s : State) : (s.post f d).holds = s.holds := rfl
@[simp] theorem State.post_nextHoldId (f : Flag) (d : Byte) (s : State) : (s.post f d).nextHoldId = s.nextHoldId := rfl
@[simp] theorem State.post_refusedHolds (f : Flag) (d : Byte) (s : State) : (s.post f d).refusedHolds = s.refusedHolds := rfl
@[simp] theorem State.post_noHold (f : Flag) (d : Byte) (s : State) : (s.post f d).noHold = s.noHold := rfl
@[simp] theorem State.post_divider (f : Flag) (d : Byte) (s : State) : (s.post f d).divider = s.divider := rfl
@[simp] theorem State.post_budgetDue (f : Flag) (d : Byte) (s : State) : (s.post f d).budgetDue = s.budgetDue := rfl
@[simp] theorem State.post_store (f : Flag) (d : Byte) (s : State) : (s.post f d).store = s.store := rfl
@[simp] theorem State.post_log (f : Flag) (d : Byte) (s : State) : (s.post f d).log = s.log := rfl
@[simp] theorem State.post_nextSeq (f : Flag) (d : Byte) (s : State) : (s.post f d).nextSeq = s.nextSeq := rfl
@[simp] theorem State.post_lost (f : Flag) (d : Byte) (s : State) : (s.post f d).lost = s.lost := rfl
@[simp] theorem State.post_traceMode (f : Flag) (d : Byte) (s : State) : (s.post f d).traceMode = s.traceMode := rfl
@[simp] theorem State.post_threshold (f : Flag) (d : Byte) (s : State) : (s.post f d).threshold = s.threshold := rfl
@[simp] theorem State.post_protocolRecords (f : Flag) (d : Byte) (s : State) : (s.post f d).protocolRecords = s.protocolRecords := rfl
@[simp] theorem State.post_injected (f : Flag) (d : Byte) (s : State) : (s.post f d).injected = s.injected := rfl
@[simp] theorem State.post_nextAccessId (f : Flag) (d : Byte) (s : State) : (s.post f d).nextAccessId = s.nextAccessId := rfl
@[simp] theorem State.post_receiver (f : Flag) (d : Byte) (s : State) :
    (s.post f d).receiver = s.receiver.notePost f := rfl
@[simp] theorem State.post_gap (f : Flag) (d : Byte) (s : State) : (s.post f d).gap = s.gap := rfl
@[simp] theorem State.post_linkAddress (f : Flag) (d : Byte) (s : State) : (s.post f d).linkAddress = s.linkAddress := rfl
@[simp] theorem State.post_groupAddress (f : Flag) (d : Byte) (s : State) : (s.post f d).groupAddress = s.groupAddress := rfl
@[simp] theorem State.post_attentionEnable (f : Flag) (d : Byte) (s : State) : (s.post f d).attentionEnable = s.attentionEnable := rfl
@[simp] theorem State.post_attention (f : Flag) (d : Byte) (s : State) :
    (s.post f d).attention = s.attention.set f d := rfl
@[simp] theorem State.post_kept (f : Flag) (d : Byte) (s : State) : (s.post f d).kept = s.kept := rfl
@[simp] theorem State.post_checkErrors (f : Flag) (d : Byte) (s : State) : (s.post f d).checkErrors = s.checkErrors := rfl
@[simp] theorem State.post_forgetPending (f : Flag) (d : Byte) (s : State) : (s.post f d).forgetPending = s.forgetPending := rfl
@[simp] theorem State.post_serial (f : Flag) (d : Byte) (s : State) : (s.post f d).serial = s.serial := rfl
@[simp] theorem State.post_revision (f : Flag) (d : Byte) (s : State) : (s.post f d).revision = s.revision := rfl
@[simp] theorem State.post_batch (f : Flag) (d : Byte) (s : State) : (s.post f d).batch = s.batch := rfl
@[simp] theorem State.post_freeCount (f : Flag) (d : Byte) (s : State) : (s.post f d).freeCount = s.freeCount := rfl
@[simp] theorem State.post_pending (f : Flag) (d : Byte) (s : State) : (s.post f d).pending = s.pending := rfl

/-! ### `State.putSlot` -/

@[simp] theorem State.putSlot_porAsserted (t : Tag) (x : Transaction) (s : State) : (s.putSlot t x).porAsserted = s.porAsserted := rfl
@[simp] theorem State.putSlot_rqrstIn (t : Tag) (x : Transaction) (s : State) : (s.putSlot t x).rqrstIn = s.rqrstIn := rfl
@[simp] theorem State.putSlot_pulse (t : Tag) (x : Transaction) (s : State) : (s.putSlot t x).pulse = s.pulse := rfl
@[simp] theorem State.putSlot_eventLatch (t : Tag) (x : Transaction) (s : State) : (s.putSlot t x).eventLatch = s.eventLatch := rfl
@[simp] theorem State.putSlot_tickCount (t : Tag) (x : Transaction) (s : State) : (s.putSlot t x).tickCount = s.tickCount := rfl
@[simp] theorem State.putSlot_transit (t : Tag) (x : Transaction) (s : State) :
    (s.putSlot t x).transit = s.transit.set t (some x) := rfl
@[simp] theorem State.putSlot_nextPosition (t : Tag) (x : Transaction) (s : State) : (s.putSlot t x).nextPosition = s.nextPosition := rfl
@[simp] theorem State.putSlot_presented (t : Tag) (x : Transaction) (s : State) : (s.putSlot t x).presented = s.presented := rfl
@[simp] theorem State.putSlot_answerQueue (t : Tag) (x : Transaction) (s : State) : (s.putSlot t x).answerQueue = s.answerQueue := rfl
@[simp] theorem State.putSlot_issueList (t : Tag) (x : Transaction) (s : State) : (s.putSlot t x).issueList = s.issueList := rfl
@[simp] theorem State.putSlot_fairness (t : Tag) (x : Transaction) (s : State) : (s.putSlot t x).fairness = s.fairness := rfl
@[simp] theorem State.putSlot_table (t : Tag) (x : Transaction) (s : State) : (s.putSlot t x).table = s.table := rfl
@[simp] theorem State.putSlot_holds (t : Tag) (x : Transaction) (s : State) : (s.putSlot t x).holds = s.holds := rfl
@[simp] theorem State.putSlot_nextHoldId (t : Tag) (x : Transaction) (s : State) : (s.putSlot t x).nextHoldId = s.nextHoldId := rfl
@[simp] theorem State.putSlot_refusedHolds (t : Tag) (x : Transaction) (s : State) : (s.putSlot t x).refusedHolds = s.refusedHolds := rfl
@[simp] theorem State.putSlot_noHold (t : Tag) (x : Transaction) (s : State) : (s.putSlot t x).noHold = s.noHold := rfl
@[simp] theorem State.putSlot_divider (t : Tag) (x : Transaction) (s : State) : (s.putSlot t x).divider = s.divider := rfl
@[simp] theorem State.putSlot_budgetDue (t : Tag) (x : Transaction) (s : State) : (s.putSlot t x).budgetDue = s.budgetDue := rfl
@[simp] theorem State.putSlot_store (t : Tag) (x : Transaction) (s : State) : (s.putSlot t x).store = s.store := rfl
@[simp] theorem State.putSlot_log (t : Tag) (x : Transaction) (s : State) : (s.putSlot t x).log = s.log := rfl
@[simp] theorem State.putSlot_nextSeq (t : Tag) (x : Transaction) (s : State) : (s.putSlot t x).nextSeq = s.nextSeq := rfl
@[simp] theorem State.putSlot_lost (t : Tag) (x : Transaction) (s : State) : (s.putSlot t x).lost = s.lost := rfl
@[simp] theorem State.putSlot_traceMode (t : Tag) (x : Transaction) (s : State) : (s.putSlot t x).traceMode = s.traceMode := rfl
@[simp] theorem State.putSlot_threshold (t : Tag) (x : Transaction) (s : State) : (s.putSlot t x).threshold = s.threshold := rfl
@[simp] theorem State.putSlot_protocolRecords (t : Tag) (x : Transaction) (s : State) : (s.putSlot t x).protocolRecords = s.protocolRecords := rfl
@[simp] theorem State.putSlot_injected (t : Tag) (x : Transaction) (s : State) : (s.putSlot t x).injected = s.injected := rfl
@[simp] theorem State.putSlot_nextAccessId (t : Tag) (x : Transaction) (s : State) : (s.putSlot t x).nextAccessId = s.nextAccessId := rfl
@[simp] theorem State.putSlot_receiver (t : Tag) (x : Transaction) (s : State) : (s.putSlot t x).receiver = s.receiver := rfl
@[simp] theorem State.putSlot_gap (t : Tag) (x : Transaction) (s : State) : (s.putSlot t x).gap = s.gap := rfl
@[simp] theorem State.putSlot_linkAddress (t : Tag) (x : Transaction) (s : State) : (s.putSlot t x).linkAddress = s.linkAddress := rfl
@[simp] theorem State.putSlot_groupAddress (t : Tag) (x : Transaction) (s : State) : (s.putSlot t x).groupAddress = s.groupAddress := rfl
@[simp] theorem State.putSlot_attentionEnable (t : Tag) (x : Transaction) (s : State) : (s.putSlot t x).attentionEnable = s.attentionEnable := rfl
@[simp] theorem State.putSlot_attention (t : Tag) (x : Transaction) (s : State) : (s.putSlot t x).attention = s.attention := rfl
@[simp] theorem State.putSlot_kept (t : Tag) (x : Transaction) (s : State) : (s.putSlot t x).kept = s.kept := rfl
@[simp] theorem State.putSlot_checkErrors (t : Tag) (x : Transaction) (s : State) : (s.putSlot t x).checkErrors = s.checkErrors := rfl
@[simp] theorem State.putSlot_forgetPending (t : Tag) (x : Transaction) (s : State) : (s.putSlot t x).forgetPending = s.forgetPending := rfl
@[simp] theorem State.putSlot_serial (t : Tag) (x : Transaction) (s : State) : (s.putSlot t x).serial = s.serial := rfl
@[simp] theorem State.putSlot_revision (t : Tag) (x : Transaction) (s : State) : (s.putSlot t x).revision = s.revision := rfl
@[simp] theorem State.putSlot_batch (t : Tag) (x : Transaction) (s : State) : (s.putSlot t x).batch = s.batch := rfl
@[simp] theorem State.putSlot_freeCount (t : Tag) (x : Transaction) (s : State) : (s.putSlot t x).freeCount = s.freeCount := rfl
@[simp] theorem State.putSlot_pending (t : Tag) (x : Transaction) (s : State) : (s.putSlot t x).pending = s.pending := rfl

/-! ### `State.freeSlot` -/

@[simp] theorem State.freeSlot_porAsserted (t : Tag) (s : State) : (s.freeSlot t).porAsserted = s.porAsserted := rfl
@[simp] theorem State.freeSlot_rqrstIn (t : Tag) (s : State) : (s.freeSlot t).rqrstIn = s.rqrstIn := rfl
@[simp] theorem State.freeSlot_pulse (t : Tag) (s : State) : (s.freeSlot t).pulse = s.pulse := rfl
@[simp] theorem State.freeSlot_eventLatch (t : Tag) (s : State) : (s.freeSlot t).eventLatch = s.eventLatch := rfl
@[simp] theorem State.freeSlot_tickCount (t : Tag) (s : State) : (s.freeSlot t).tickCount = s.tickCount := rfl
@[simp] theorem State.freeSlot_transit (t : Tag) (s : State) : (s.freeSlot t).transit = s.transit.set t none := rfl
@[simp] theorem State.freeSlot_nextPosition (t : Tag) (s : State) : (s.freeSlot t).nextPosition = s.nextPosition := rfl
@[simp] theorem State.freeSlot_presented (t : Tag) (s : State) : (s.freeSlot t).presented = s.presented := rfl
@[simp] theorem State.freeSlot_answerQueue (t : Tag) (s : State) : (s.freeSlot t).answerQueue = s.answerQueue := rfl
@[simp] theorem State.freeSlot_issueList (t : Tag) (s : State) : (s.freeSlot t).issueList = s.issueList := rfl
@[simp] theorem State.freeSlot_fairness (t : Tag) (s : State) : (s.freeSlot t).fairness = s.fairness := rfl
@[simp] theorem State.freeSlot_table (t : Tag) (s : State) : (s.freeSlot t).table = s.table := rfl
@[simp] theorem State.freeSlot_holds (t : Tag) (s : State) : (s.freeSlot t).holds = s.holds := rfl
@[simp] theorem State.freeSlot_nextHoldId (t : Tag) (s : State) : (s.freeSlot t).nextHoldId = s.nextHoldId := rfl
@[simp] theorem State.freeSlot_refusedHolds (t : Tag) (s : State) : (s.freeSlot t).refusedHolds = s.refusedHolds := rfl
@[simp] theorem State.freeSlot_noHold (t : Tag) (s : State) : (s.freeSlot t).noHold = s.noHold := rfl
@[simp] theorem State.freeSlot_divider (t : Tag) (s : State) : (s.freeSlot t).divider = s.divider := rfl
@[simp] theorem State.freeSlot_budgetDue (t : Tag) (s : State) : (s.freeSlot t).budgetDue = s.budgetDue := rfl
@[simp] theorem State.freeSlot_store (t : Tag) (s : State) : (s.freeSlot t).store = s.store := rfl
@[simp] theorem State.freeSlot_log (t : Tag) (s : State) : (s.freeSlot t).log = s.log := rfl
@[simp] theorem State.freeSlot_nextSeq (t : Tag) (s : State) : (s.freeSlot t).nextSeq = s.nextSeq := rfl
@[simp] theorem State.freeSlot_lost (t : Tag) (s : State) : (s.freeSlot t).lost = s.lost := rfl
@[simp] theorem State.freeSlot_traceMode (t : Tag) (s : State) : (s.freeSlot t).traceMode = s.traceMode := rfl
@[simp] theorem State.freeSlot_threshold (t : Tag) (s : State) : (s.freeSlot t).threshold = s.threshold := rfl
@[simp] theorem State.freeSlot_protocolRecords (t : Tag) (s : State) : (s.freeSlot t).protocolRecords = s.protocolRecords := rfl
@[simp] theorem State.freeSlot_injected (t : Tag) (s : State) : (s.freeSlot t).injected = s.injected := rfl
@[simp] theorem State.freeSlot_nextAccessId (t : Tag) (s : State) : (s.freeSlot t).nextAccessId = s.nextAccessId := rfl
@[simp] theorem State.freeSlot_receiver (t : Tag) (s : State) : (s.freeSlot t).receiver = s.receiver := rfl
@[simp] theorem State.freeSlot_gap (t : Tag) (s : State) : (s.freeSlot t).gap = s.gap := rfl
@[simp] theorem State.freeSlot_linkAddress (t : Tag) (s : State) : (s.freeSlot t).linkAddress = s.linkAddress := rfl
@[simp] theorem State.freeSlot_groupAddress (t : Tag) (s : State) : (s.freeSlot t).groupAddress = s.groupAddress := rfl
@[simp] theorem State.freeSlot_attentionEnable (t : Tag) (s : State) : (s.freeSlot t).attentionEnable = s.attentionEnable := rfl
@[simp] theorem State.freeSlot_attention (t : Tag) (s : State) : (s.freeSlot t).attention = s.attention := rfl
@[simp] theorem State.freeSlot_kept (t : Tag) (s : State) : (s.freeSlot t).kept = s.kept := rfl
@[simp] theorem State.freeSlot_checkErrors (t : Tag) (s : State) : (s.freeSlot t).checkErrors = s.checkErrors := rfl
@[simp] theorem State.freeSlot_forgetPending (t : Tag) (s : State) : (s.freeSlot t).forgetPending = s.forgetPending := rfl
@[simp] theorem State.freeSlot_serial (t : Tag) (s : State) : (s.freeSlot t).serial = s.serial := rfl
@[simp] theorem State.freeSlot_revision (t : Tag) (s : State) : (s.freeSlot t).revision = s.revision := rfl
@[simp] theorem State.freeSlot_batch (t : Tag) (s : State) : (s.freeSlot t).batch = s.batch := rfl
@[simp] theorem State.freeSlot_freeCount (t : Tag) (s : State) : (s.freeSlot t).freeCount = s.freeCount := rfl
@[simp] theorem State.freeSlot_pending (t : Tag) (s : State) : (s.freeSlot t).pending = s.pending := rfl

/-! ### `State.answerSlot` -/

@[simp] theorem State.answerSlot_porAsserted (t : Tag) (x : Transaction) (r : BusResponse) (s : State) : (s.answerSlot t x r).porAsserted = s.porAsserted := rfl
@[simp] theorem State.answerSlot_rqrstIn (t : Tag) (x : Transaction) (r : BusResponse) (s : State) : (s.answerSlot t x r).rqrstIn = s.rqrstIn := rfl
@[simp] theorem State.answerSlot_pulse (t : Tag) (x : Transaction) (r : BusResponse) (s : State) : (s.answerSlot t x r).pulse = s.pulse := rfl
@[simp] theorem State.answerSlot_eventLatch (t : Tag) (x : Transaction) (r : BusResponse) (s : State) : (s.answerSlot t x r).eventLatch = s.eventLatch := rfl
@[simp] theorem State.answerSlot_tickCount (t : Tag) (x : Transaction) (r : BusResponse) (s : State) : (s.answerSlot t x r).tickCount = s.tickCount := rfl
@[simp] theorem State.answerSlot_transit (t : Tag) (x : Transaction) (r : BusResponse) (s : State) :
    (s.answerSlot t x r).transit = s.transit.set t (some { x with stage := .answering r }) := rfl
@[simp] theorem State.answerSlot_nextPosition (t : Tag) (x : Transaction) (r : BusResponse) (s : State) : (s.answerSlot t x r).nextPosition = s.nextPosition := rfl
@[simp] theorem State.answerSlot_presented (t : Tag) (x : Transaction) (r : BusResponse) (s : State) : (s.answerSlot t x r).presented = s.presented := rfl
@[simp] theorem State.answerSlot_answerQueue (t : Tag) (x : Transaction) (r : BusResponse) (s : State) :
    (s.answerSlot t x r).answerQueue = s.answerQueue ++ [t] := rfl
@[simp] theorem State.answerSlot_issueList (t : Tag) (x : Transaction) (r : BusResponse) (s : State) : (s.answerSlot t x r).issueList = s.issueList := rfl
@[simp] theorem State.answerSlot_fairness (t : Tag) (x : Transaction) (r : BusResponse) (s : State) : (s.answerSlot t x r).fairness = s.fairness := rfl
@[simp] theorem State.answerSlot_table (t : Tag) (x : Transaction) (r : BusResponse) (s : State) : (s.answerSlot t x r).table = s.table := rfl
@[simp] theorem State.answerSlot_holds (t : Tag) (x : Transaction) (r : BusResponse) (s : State) : (s.answerSlot t x r).holds = s.holds := rfl
@[simp] theorem State.answerSlot_nextHoldId (t : Tag) (x : Transaction) (r : BusResponse) (s : State) : (s.answerSlot t x r).nextHoldId = s.nextHoldId := rfl
@[simp] theorem State.answerSlot_refusedHolds (t : Tag) (x : Transaction) (r : BusResponse) (s : State) : (s.answerSlot t x r).refusedHolds = s.refusedHolds := rfl
@[simp] theorem State.answerSlot_noHold (t : Tag) (x : Transaction) (r : BusResponse) (s : State) : (s.answerSlot t x r).noHold = s.noHold := rfl
@[simp] theorem State.answerSlot_divider (t : Tag) (x : Transaction) (r : BusResponse) (s : State) : (s.answerSlot t x r).divider = s.divider := rfl
@[simp] theorem State.answerSlot_budgetDue (t : Tag) (x : Transaction) (r : BusResponse) (s : State) : (s.answerSlot t x r).budgetDue = s.budgetDue := rfl
@[simp] theorem State.answerSlot_store (t : Tag) (x : Transaction) (r : BusResponse) (s : State) : (s.answerSlot t x r).store = s.store := rfl
@[simp] theorem State.answerSlot_log (t : Tag) (x : Transaction) (r : BusResponse) (s : State) : (s.answerSlot t x r).log = s.log := rfl
@[simp] theorem State.answerSlot_nextSeq (t : Tag) (x : Transaction) (r : BusResponse) (s : State) : (s.answerSlot t x r).nextSeq = s.nextSeq := rfl
@[simp] theorem State.answerSlot_lost (t : Tag) (x : Transaction) (r : BusResponse) (s : State) : (s.answerSlot t x r).lost = s.lost := rfl
@[simp] theorem State.answerSlot_traceMode (t : Tag) (x : Transaction) (r : BusResponse) (s : State) : (s.answerSlot t x r).traceMode = s.traceMode := rfl
@[simp] theorem State.answerSlot_threshold (t : Tag) (x : Transaction) (r : BusResponse) (s : State) : (s.answerSlot t x r).threshold = s.threshold := rfl
@[simp] theorem State.answerSlot_protocolRecords (t : Tag) (x : Transaction) (r : BusResponse) (s : State) : (s.answerSlot t x r).protocolRecords = s.protocolRecords := rfl
@[simp] theorem State.answerSlot_injected (t : Tag) (x : Transaction) (r : BusResponse) (s : State) : (s.answerSlot t x r).injected = s.injected := rfl
@[simp] theorem State.answerSlot_nextAccessId (t : Tag) (x : Transaction) (r : BusResponse) (s : State) : (s.answerSlot t x r).nextAccessId = s.nextAccessId := rfl
@[simp] theorem State.answerSlot_receiver (t : Tag) (x : Transaction) (r : BusResponse) (s : State) : (s.answerSlot t x r).receiver = s.receiver := rfl
@[simp] theorem State.answerSlot_gap (t : Tag) (x : Transaction) (r : BusResponse) (s : State) : (s.answerSlot t x r).gap = s.gap := rfl
@[simp] theorem State.answerSlot_linkAddress (t : Tag) (x : Transaction) (r : BusResponse) (s : State) : (s.answerSlot t x r).linkAddress = s.linkAddress := rfl
@[simp] theorem State.answerSlot_groupAddress (t : Tag) (x : Transaction) (r : BusResponse) (s : State) : (s.answerSlot t x r).groupAddress = s.groupAddress := rfl
@[simp] theorem State.answerSlot_attentionEnable (t : Tag) (x : Transaction) (r : BusResponse) (s : State) : (s.answerSlot t x r).attentionEnable = s.attentionEnable := rfl
@[simp] theorem State.answerSlot_attention (t : Tag) (x : Transaction) (r : BusResponse) (s : State) : (s.answerSlot t x r).attention = s.attention := rfl
@[simp] theorem State.answerSlot_kept (t : Tag) (x : Transaction) (r : BusResponse) (s : State) : (s.answerSlot t x r).kept = s.kept := rfl
@[simp] theorem State.answerSlot_checkErrors (t : Tag) (x : Transaction) (r : BusResponse) (s : State) : (s.answerSlot t x r).checkErrors = s.checkErrors := rfl
@[simp] theorem State.answerSlot_forgetPending (t : Tag) (x : Transaction) (r : BusResponse) (s : State) : (s.answerSlot t x r).forgetPending = s.forgetPending := rfl
@[simp] theorem State.answerSlot_serial (t : Tag) (x : Transaction) (r : BusResponse) (s : State) : (s.answerSlot t x r).serial = s.serial := rfl
@[simp] theorem State.answerSlot_revision (t : Tag) (x : Transaction) (r : BusResponse) (s : State) : (s.answerSlot t x r).revision = s.revision := rfl
@[simp] theorem State.answerSlot_batch (t : Tag) (x : Transaction) (r : BusResponse) (s : State) : (s.answerSlot t x r).batch = s.batch := rfl
@[simp] theorem State.answerSlot_freeCount (t : Tag) (x : Transaction) (r : BusResponse) (s : State) : (s.answerSlot t x r).freeCount = s.freeCount := rfl
@[simp] theorem State.answerSlot_pending (t : Tag) (x : Transaction) (r : BusResponse) (s : State) : (s.answerSlot t x r).pending = s.pending := rfl

/-! ### `State.append` -/

@[simp] theorem State.append_porAsserted (s : State) (n : TraceNote) : (s.append n).porAsserted = s.porAsserted := rfl
@[simp] theorem State.append_rqrstIn (s : State) (n : TraceNote) : (s.append n).rqrstIn = s.rqrstIn := rfl
@[simp] theorem State.append_pulse (s : State) (n : TraceNote) : (s.append n).pulse = s.pulse := rfl
@[simp] theorem State.append_eventLatch (s : State) (n : TraceNote) : (s.append n).eventLatch = s.eventLatch := rfl
@[simp] theorem State.append_tickCount (s : State) (n : TraceNote) : (s.append n).tickCount = s.tickCount := rfl
@[simp] theorem State.append_transit (s : State) (n : TraceNote) : (s.append n).transit = s.transit := rfl
@[simp] theorem State.append_nextPosition (s : State) (n : TraceNote) : (s.append n).nextPosition = s.nextPosition := rfl
@[simp] theorem State.append_presented (s : State) (n : TraceNote) : (s.append n).presented = s.presented := rfl
@[simp] theorem State.append_answerQueue (s : State) (n : TraceNote) : (s.append n).answerQueue = s.answerQueue := rfl
@[simp] theorem State.append_issueList (s : State) (n : TraceNote) : (s.append n).issueList = s.issueList := rfl
@[simp] theorem State.append_fairness (s : State) (n : TraceNote) : (s.append n).fairness = s.fairness := rfl
@[simp] theorem State.append_table (s : State) (n : TraceNote) : (s.append n).table = s.table := rfl
@[simp] theorem State.append_holds (s : State) (n : TraceNote) : (s.append n).holds = s.holds := rfl
@[simp] theorem State.append_nextHoldId (s : State) (n : TraceNote) : (s.append n).nextHoldId = s.nextHoldId := rfl
@[simp] theorem State.append_refusedHolds (s : State) (n : TraceNote) : (s.append n).refusedHolds = s.refusedHolds := rfl
@[simp] theorem State.append_noHold (s : State) (n : TraceNote) : (s.append n).noHold = s.noHold := rfl
@[simp] theorem State.append_divider (s : State) (n : TraceNote) : (s.append n).divider = s.divider := rfl
@[simp] theorem State.append_budgetDue (s : State) (n : TraceNote) : (s.append n).budgetDue = s.budgetDue := rfl
@[simp] theorem State.append_store (s : State) (n : TraceNote) : (s.append n).store = s.store := rfl
@[simp] theorem State.append_nextSeq (s : State) (n : TraceNote) :
    (s.append n).nextSeq = if s.logDiscards then s.nextSeq else s.nextSeq + 1 := rfl
@[simp] theorem State.append_lost (s : State) (n : TraceNote) :
    (s.append n).lost = if s.logFull then min (s.lost + 1) 65535 else s.lost := rfl
@[simp] theorem State.append_traceMode (s : State) (n : TraceNote) : (s.append n).traceMode = s.traceMode := rfl
@[simp] theorem State.append_threshold (s : State) (n : TraceNote) : (s.append n).threshold = s.threshold := rfl
@[simp] theorem State.append_protocolRecords (s : State) (n : TraceNote) : (s.append n).protocolRecords = s.protocolRecords := rfl
@[simp] theorem State.append_injected (s : State) (n : TraceNote) : (s.append n).injected = s.injected := rfl
@[simp] theorem State.append_nextAccessId (s : State) (n : TraceNote) : (s.append n).nextAccessId = s.nextAccessId := rfl
@[simp] theorem State.append_receiver (s : State) (n : TraceNote) :
    (s.append n).receiver = if s.meetsThreshold then s.receiver.notePost .trace else s.receiver := rfl
@[simp] theorem State.append_gap (s : State) (n : TraceNote) : (s.append n).gap = s.gap := rfl
@[simp] theorem State.append_linkAddress (s : State) (n : TraceNote) : (s.append n).linkAddress = s.linkAddress := rfl
@[simp] theorem State.append_groupAddress (s : State) (n : TraceNote) : (s.append n).groupAddress = s.groupAddress := rfl
@[simp] theorem State.append_attentionEnable (s : State) (n : TraceNote) : (s.append n).attentionEnable = s.attentionEnable := rfl
@[simp] theorem State.append_attention (s : State) (n : TraceNote) :
    (s.append n).attention = if s.meetsThreshold then s.attention.set .trace (fillByte s.threshold) else s.attention := rfl
@[simp] theorem State.append_kept (s : State) (n : TraceNote) : (s.append n).kept = s.kept := rfl
@[simp] theorem State.append_checkErrors (s : State) (n : TraceNote) : (s.append n).checkErrors = s.checkErrors := rfl
@[simp] theorem State.append_forgetPending (s : State) (n : TraceNote) : (s.append n).forgetPending = s.forgetPending := rfl
@[simp] theorem State.append_serial (s : State) (n : TraceNote) : (s.append n).serial = s.serial := rfl
@[simp] theorem State.append_revision (s : State) (n : TraceNote) : (s.append n).revision = s.revision := rfl
@[simp] theorem State.append_batch (s : State) (n : TraceNote) : (s.append n).batch = s.batch := rfl
@[simp] theorem State.append_freeCount (s : State) (n : TraceNote) : (s.append n).freeCount = s.freeCount := rfl
@[simp] theorem State.append_pending (s : State) (n : TraceNote) : (s.append n).pending = s.pending := rfl

/-! ### `State.forgetNow` -/

@[simp] theorem State.forgetNow_porAsserted (s : State) : (s.forgetNow).porAsserted = s.porAsserted := rfl
@[simp] theorem State.forgetNow_rqrstIn (s : State) : (s.forgetNow).rqrstIn = s.rqrstIn := rfl
@[simp] theorem State.forgetNow_pulse (s : State) : (s.forgetNow).pulse = s.pulse := rfl
@[simp] theorem State.forgetNow_eventLatch (s : State) : (s.forgetNow).eventLatch = s.eventLatch := rfl
@[simp] theorem State.forgetNow_tickCount (s : State) : (s.forgetNow).tickCount = s.tickCount := rfl
@[simp] theorem State.forgetNow_transit (s : State) : (s.forgetNow).transit = s.transit := rfl
@[simp] theorem State.forgetNow_nextPosition (s : State) : (s.forgetNow).nextPosition = s.nextPosition := rfl
@[simp] theorem State.forgetNow_presented (s : State) : (s.forgetNow).presented = s.presented := rfl
@[simp] theorem State.forgetNow_answerQueue (s : State) : (s.forgetNow).answerQueue = s.answerQueue := rfl
@[simp] theorem State.forgetNow_issueList (s : State) : (s.forgetNow).issueList = s.issueList := rfl
@[simp] theorem State.forgetNow_fairness (s : State) : (s.forgetNow).fairness = s.fairness := rfl
@[simp] theorem State.forgetNow_table (s : State) : (s.forgetNow).table = s.table := rfl
@[simp] theorem State.forgetNow_holds (s : State) : (s.forgetNow).holds = s.holds := rfl
@[simp] theorem State.forgetNow_nextHoldId (s : State) : (s.forgetNow).nextHoldId = s.nextHoldId := rfl
@[simp] theorem State.forgetNow_refusedHolds (s : State) : (s.forgetNow).refusedHolds = s.refusedHolds := rfl
@[simp] theorem State.forgetNow_noHold (s : State) : (s.forgetNow).noHold = s.noHold := rfl
@[simp] theorem State.forgetNow_divider (s : State) : (s.forgetNow).divider = s.divider := rfl
@[simp] theorem State.forgetNow_budgetDue (s : State) : (s.forgetNow).budgetDue = s.budgetDue := rfl
@[simp] theorem State.forgetNow_store (s : State) : (s.forgetNow).store = s.store := rfl
@[simp] theorem State.forgetNow_log (s : State) : (s.forgetNow).log = s.log := rfl
@[simp] theorem State.forgetNow_nextSeq (s : State) : (s.forgetNow).nextSeq = s.nextSeq := rfl
@[simp] theorem State.forgetNow_lost (s : State) : (s.forgetNow).lost = s.lost := rfl
@[simp] theorem State.forgetNow_traceMode (s : State) : (s.forgetNow).traceMode = s.traceMode := rfl
@[simp] theorem State.forgetNow_threshold (s : State) : (s.forgetNow).threshold = s.threshold := rfl
@[simp] theorem State.forgetNow_protocolRecords (s : State) : (s.forgetNow).protocolRecords = s.protocolRecords := rfl
@[simp] theorem State.forgetNow_injected (s : State) : (s.forgetNow).injected = s.injected := rfl
@[simp] theorem State.forgetNow_nextAccessId (s : State) : (s.forgetNow).nextAccessId = s.nextAccessId := rfl
@[simp] theorem State.forgetNow_receiver (s : State) : (s.forgetNow).receiver = s.receiver := rfl
@[simp] theorem State.forgetNow_gap (s : State) : (s.forgetNow).gap = s.gap := rfl
@[simp] theorem State.forgetNow_linkAddress (s : State) :
    (s.forgetNow).linkAddress = if s.forgetPending then none else s.linkAddress := rfl
@[simp] theorem State.forgetNow_groupAddress (s : State) :
    (s.forgetNow).groupAddress = if s.forgetPending then none else s.groupAddress := rfl
@[simp] theorem State.forgetNow_attentionEnable (s : State) : (s.forgetNow).attentionEnable = s.attentionEnable := rfl
@[simp] theorem State.forgetNow_attention (s : State) :
    (s.forgetNow).attention = if s.forgetPending then s.attention.set .join 0 else s.attention := rfl
@[simp] theorem State.forgetNow_kept (s : State) : (s.forgetNow).kept = s.kept := rfl
@[simp] theorem State.forgetNow_checkErrors (s : State) : (s.forgetNow).checkErrors = s.checkErrors := rfl
@[simp] theorem State.forgetNow_forgetPending (s : State) : (s.forgetNow).forgetPending = false := rfl
@[simp] theorem State.forgetNow_serial (s : State) : (s.forgetNow).serial = s.serial := rfl
@[simp] theorem State.forgetNow_revision (s : State) : (s.forgetNow).revision = s.revision := rfl
@[simp] theorem State.forgetNow_batch (s : State) : (s.forgetNow).batch = s.batch := rfl
@[simp] theorem State.forgetNow_freeCount (s : State) : (s.forgetNow).freeCount = s.freeCount := rfl
@[simp] theorem State.forgetNow_pending (s : State) : (s.forgetNow).pending = s.pending := rfl

/-! ### `State.toReceiver` -/

@[simp] theorem State.toReceiver_porAsserted (r : Receiver) (s : State) : (s.toReceiver r).porAsserted = s.porAsserted := rfl
@[simp] theorem State.toReceiver_rqrstIn (r : Receiver) (s : State) : (s.toReceiver r).rqrstIn = s.rqrstIn := rfl
@[simp] theorem State.toReceiver_pulse (r : Receiver) (s : State) : (s.toReceiver r).pulse = s.pulse := rfl
@[simp] theorem State.toReceiver_eventLatch (r : Receiver) (s : State) : (s.toReceiver r).eventLatch = s.eventLatch := rfl
@[simp] theorem State.toReceiver_tickCount (r : Receiver) (s : State) : (s.toReceiver r).tickCount = s.tickCount := rfl
@[simp] theorem State.toReceiver_transit (r : Receiver) (s : State) : (s.toReceiver r).transit = s.transit := rfl
@[simp] theorem State.toReceiver_nextPosition (r : Receiver) (s : State) : (s.toReceiver r).nextPosition = s.nextPosition := rfl
@[simp] theorem State.toReceiver_presented (r : Receiver) (s : State) : (s.toReceiver r).presented = s.presented := rfl
@[simp] theorem State.toReceiver_answerQueue (r : Receiver) (s : State) : (s.toReceiver r).answerQueue = s.answerQueue := rfl
@[simp] theorem State.toReceiver_issueList (r : Receiver) (s : State) : (s.toReceiver r).issueList = s.issueList := rfl
@[simp] theorem State.toReceiver_fairness (r : Receiver) (s : State) : (s.toReceiver r).fairness = s.fairness := rfl
@[simp] theorem State.toReceiver_table (r : Receiver) (s : State) : (s.toReceiver r).table = s.table := rfl
@[simp] theorem State.toReceiver_holds (r : Receiver) (s : State) : (s.toReceiver r).holds = s.holds := rfl
@[simp] theorem State.toReceiver_nextHoldId (r : Receiver) (s : State) : (s.toReceiver r).nextHoldId = s.nextHoldId := rfl
@[simp] theorem State.toReceiver_refusedHolds (r : Receiver) (s : State) : (s.toReceiver r).refusedHolds = s.refusedHolds := rfl
@[simp] theorem State.toReceiver_noHold (r : Receiver) (s : State) : (s.toReceiver r).noHold = s.noHold := rfl
@[simp] theorem State.toReceiver_divider (r : Receiver) (s : State) : (s.toReceiver r).divider = s.divider := rfl
@[simp] theorem State.toReceiver_budgetDue (r : Receiver) (s : State) : (s.toReceiver r).budgetDue = s.budgetDue := rfl
@[simp] theorem State.toReceiver_store (r : Receiver) (s : State) : (s.toReceiver r).store = s.store := rfl
@[simp] theorem State.toReceiver_log (r : Receiver) (s : State) : (s.toReceiver r).log = s.log := rfl
@[simp] theorem State.toReceiver_nextSeq (r : Receiver) (s : State) : (s.toReceiver r).nextSeq = s.nextSeq := rfl
@[simp] theorem State.toReceiver_lost (r : Receiver) (s : State) : (s.toReceiver r).lost = s.lost := rfl
@[simp] theorem State.toReceiver_traceMode (r : Receiver) (s : State) : (s.toReceiver r).traceMode = s.traceMode := rfl
@[simp] theorem State.toReceiver_threshold (r : Receiver) (s : State) : (s.toReceiver r).threshold = s.threshold := rfl
@[simp] theorem State.toReceiver_protocolRecords (r : Receiver) (s : State) : (s.toReceiver r).protocolRecords = s.protocolRecords := rfl
@[simp] theorem State.toReceiver_injected (r : Receiver) (s : State) : (s.toReceiver r).injected = s.injected := rfl
@[simp] theorem State.toReceiver_nextAccessId (r : Receiver) (s : State) : (s.toReceiver r).nextAccessId = s.nextAccessId := rfl
@[simp] theorem State.toReceiver_receiver (r : Receiver) (s : State) : (s.toReceiver r).receiver = r := rfl
@[simp] theorem State.toReceiver_gap (r : Receiver) (s : State) : (s.toReceiver r).gap = s.gap := rfl
@[simp] theorem State.toReceiver_linkAddress (r : Receiver) (s : State) : (s.toReceiver r).linkAddress = s.linkAddress := rfl
@[simp] theorem State.toReceiver_groupAddress (r : Receiver) (s : State) : (s.toReceiver r).groupAddress = s.groupAddress := rfl
@[simp] theorem State.toReceiver_attentionEnable (r : Receiver) (s : State) : (s.toReceiver r).attentionEnable = s.attentionEnable := rfl
@[simp] theorem State.toReceiver_attention (r : Receiver) (s : State) : (s.toReceiver r).attention = s.attention := rfl
@[simp] theorem State.toReceiver_kept (r : Receiver) (s : State) : (s.toReceiver r).kept = s.kept := rfl
@[simp] theorem State.toReceiver_checkErrors (r : Receiver) (s : State) : (s.toReceiver r).checkErrors = s.checkErrors := rfl
@[simp] theorem State.toReceiver_forgetPending (r : Receiver) (s : State) : (s.toReceiver r).forgetPending = s.forgetPending := rfl
@[simp] theorem State.toReceiver_serial (r : Receiver) (s : State) : (s.toReceiver r).serial = s.serial := rfl
@[simp] theorem State.toReceiver_revision (r : Receiver) (s : State) : (s.toReceiver r).revision = s.revision := rfl
@[simp] theorem State.toReceiver_batch (r : Receiver) (s : State) : (s.toReceiver r).batch = s.batch := rfl
@[simp] theorem State.toReceiver_freeCount (r : Receiver) (s : State) : (s.toReceiver r).freeCount = s.freeCount := rfl
@[simp] theorem State.toReceiver_pending (r : Receiver) (s : State) : (s.toReceiver r).pending = s.pending := rfl

/-! ### `State.respond` -/

@[simp] theorem State.respond_porAsserted (r : Response) (s : State) : (s.respond r).porAsserted = s.porAsserted := rfl
@[simp] theorem State.respond_rqrstIn (r : Response) (s : State) : (s.respond r).rqrstIn = s.rqrstIn := rfl
@[simp] theorem State.respond_pulse (r : Response) (s : State) : (s.respond r).pulse = s.pulse := rfl
@[simp] theorem State.respond_eventLatch (r : Response) (s : State) : (s.respond r).eventLatch = s.eventLatch := rfl
@[simp] theorem State.respond_tickCount (r : Response) (s : State) : (s.respond r).tickCount = s.tickCount := rfl
@[simp] theorem State.respond_transit (r : Response) (s : State) : (s.respond r).transit = s.transit := rfl
@[simp] theorem State.respond_nextPosition (r : Response) (s : State) : (s.respond r).nextPosition = s.nextPosition := rfl
@[simp] theorem State.respond_presented (r : Response) (s : State) : (s.respond r).presented = s.presented := rfl
@[simp] theorem State.respond_answerQueue (r : Response) (s : State) : (s.respond r).answerQueue = s.answerQueue := rfl
@[simp] theorem State.respond_issueList (r : Response) (s : State) : (s.respond r).issueList = s.issueList := rfl
@[simp] theorem State.respond_fairness (r : Response) (s : State) : (s.respond r).fairness = s.fairness := rfl
@[simp] theorem State.respond_table (r : Response) (s : State) : (s.respond r).table = s.table := rfl
@[simp] theorem State.respond_holds (r : Response) (s : State) : (s.respond r).holds = s.holds := rfl
@[simp] theorem State.respond_nextHoldId (r : Response) (s : State) : (s.respond r).nextHoldId = s.nextHoldId := rfl
@[simp] theorem State.respond_refusedHolds (r : Response) (s : State) : (s.respond r).refusedHolds = s.refusedHolds := rfl
@[simp] theorem State.respond_noHold (r : Response) (s : State) : (s.respond r).noHold = s.noHold := rfl
@[simp] theorem State.respond_divider (r : Response) (s : State) : (s.respond r).divider = s.divider := rfl
@[simp] theorem State.respond_budgetDue (r : Response) (s : State) : (s.respond r).budgetDue = s.budgetDue := rfl
@[simp] theorem State.respond_store (r : Response) (s : State) : (s.respond r).store = s.store := rfl
@[simp] theorem State.respond_log (r : Response) (s : State) : (s.respond r).log = s.log := rfl
@[simp] theorem State.respond_nextSeq (r : Response) (s : State) : (s.respond r).nextSeq = s.nextSeq := rfl
@[simp] theorem State.respond_lost (r : Response) (s : State) : (s.respond r).lost = s.lost := rfl
@[simp] theorem State.respond_traceMode (r : Response) (s : State) : (s.respond r).traceMode = s.traceMode := rfl
@[simp] theorem State.respond_threshold (r : Response) (s : State) : (s.respond r).threshold = s.threshold := rfl
@[simp] theorem State.respond_protocolRecords (r : Response) (s : State) : (s.respond r).protocolRecords = s.protocolRecords := rfl
@[simp] theorem State.respond_injected (r : Response) (s : State) : (s.respond r).injected = s.injected := rfl
@[simp] theorem State.respond_nextAccessId (r : Response) (s : State) : (s.respond r).nextAccessId = s.nextAccessId := rfl
@[simp] theorem State.respond_receiver (r : Response) (s : State) : (s.respond r).receiver = .responding r := rfl
@[simp] theorem State.respond_gap (r : Response) (s : State) : (s.respond r).gap = 0 := rfl
@[simp] theorem State.respond_linkAddress (r : Response) (s : State) : (s.respond r).linkAddress = s.linkAddress := rfl
@[simp] theorem State.respond_groupAddress (r : Response) (s : State) : (s.respond r).groupAddress = s.groupAddress := rfl
@[simp] theorem State.respond_attentionEnable (r : Response) (s : State) : (s.respond r).attentionEnable = s.attentionEnable := rfl
@[simp] theorem State.respond_attention (r : Response) (s : State) : (s.respond r).attention = s.attention := rfl
@[simp] theorem State.respond_kept (r : Response) (s : State) : (s.respond r).kept = s.kept := rfl
@[simp] theorem State.respond_checkErrors (r : Response) (s : State) : (s.respond r).checkErrors = s.checkErrors := rfl
@[simp] theorem State.respond_forgetPending (r : Response) (s : State) : (s.respond r).forgetPending = s.forgetPending := rfl
@[simp] theorem State.respond_serial (r : Response) (s : State) : (s.respond r).serial = s.serial := rfl
@[simp] theorem State.respond_revision (r : Response) (s : State) : (s.respond r).revision = s.revision := rfl
@[simp] theorem State.respond_batch (r : Response) (s : State) : (s.respond r).batch = s.batch := rfl
@[simp] theorem State.respond_freeCount (r : Response) (s : State) : (s.respond r).freeCount = s.freeCount := rfl
@[simp] theorem State.respond_pending (r : Response) (s : State) : (s.respond r).pending = s.pending := rfl

/-! ### `State.endResponse` -/

@[simp] theorem State.endResponse_porAsserted (s : State) : (s.endResponse).porAsserted = s.porAsserted := rfl
@[simp] theorem State.endResponse_rqrstIn (s : State) : (s.endResponse).rqrstIn = s.rqrstIn := rfl
@[simp] theorem State.endResponse_pulse (s : State) : (s.endResponse).pulse = s.pulse := rfl
@[simp] theorem State.endResponse_eventLatch (s : State) : (s.endResponse).eventLatch = s.eventLatch := rfl
@[simp] theorem State.endResponse_tickCount (s : State) : (s.endResponse).tickCount = s.tickCount := rfl
@[simp] theorem State.endResponse_transit (s : State) : (s.endResponse).transit = s.transit := rfl
@[simp] theorem State.endResponse_nextPosition (s : State) : (s.endResponse).nextPosition = s.nextPosition := rfl
@[simp] theorem State.endResponse_presented (s : State) : (s.endResponse).presented = s.presented := rfl
@[simp] theorem State.endResponse_answerQueue (s : State) : (s.endResponse).answerQueue = s.answerQueue := rfl
@[simp] theorem State.endResponse_issueList (s : State) : (s.endResponse).issueList = s.issueList := rfl
@[simp] theorem State.endResponse_fairness (s : State) : (s.endResponse).fairness = s.fairness := rfl
@[simp] theorem State.endResponse_table (s : State) : (s.endResponse).table = s.table := rfl
@[simp] theorem State.endResponse_holds (s : State) : (s.endResponse).holds = s.holds := rfl
@[simp] theorem State.endResponse_nextHoldId (s : State) : (s.endResponse).nextHoldId = s.nextHoldId := rfl
@[simp] theorem State.endResponse_refusedHolds (s : State) : (s.endResponse).refusedHolds = s.refusedHolds := rfl
@[simp] theorem State.endResponse_noHold (s : State) : (s.endResponse).noHold = s.noHold := rfl
@[simp] theorem State.endResponse_divider (s : State) : (s.endResponse).divider = s.divider := rfl
@[simp] theorem State.endResponse_budgetDue (s : State) : (s.endResponse).budgetDue = s.budgetDue := rfl
@[simp] theorem State.endResponse_store (s : State) : (s.endResponse).store = s.store := rfl
@[simp] theorem State.endResponse_log (s : State) : (s.endResponse).log = s.log := rfl
@[simp] theorem State.endResponse_nextSeq (s : State) : (s.endResponse).nextSeq = s.nextSeq := rfl
@[simp] theorem State.endResponse_lost (s : State) : (s.endResponse).lost = s.lost := rfl
@[simp] theorem State.endResponse_traceMode (s : State) : (s.endResponse).traceMode = s.traceMode := rfl
@[simp] theorem State.endResponse_threshold (s : State) : (s.endResponse).threshold = s.threshold := rfl
@[simp] theorem State.endResponse_protocolRecords (s : State) : (s.endResponse).protocolRecords = s.protocolRecords := rfl
@[simp] theorem State.endResponse_injected (s : State) : (s.endResponse).injected = s.injected := rfl
@[simp] theorem State.endResponse_nextAccessId (s : State) : (s.endResponse).nextAccessId = s.nextAccessId := rfl
@[simp] theorem State.endResponse_receiver (s : State) : (s.endResponse).receiver = .idle := rfl
@[simp] theorem State.endResponse_gap (s : State) : (s.endResponse).gap = s.gap := rfl
@[simp] theorem State.endResponse_linkAddress (s : State) :
    (s.endResponse).linkAddress = if s.forgetPending then none else s.linkAddress := rfl
@[simp] theorem State.endResponse_groupAddress (s : State) :
    (s.endResponse).groupAddress = if s.forgetPending then none else s.groupAddress := rfl
@[simp] theorem State.endResponse_attentionEnable (s : State) : (s.endResponse).attentionEnable = s.attentionEnable := rfl
@[simp] theorem State.endResponse_attention (s : State) :
    (s.endResponse).attention = if s.forgetPending then s.attention.set .join 0 else s.attention := rfl
@[simp] theorem State.endResponse_kept (s : State) : (s.endResponse).kept = s.kept := rfl
@[simp] theorem State.endResponse_checkErrors (s : State) : (s.endResponse).checkErrors = s.checkErrors := rfl
@[simp] theorem State.endResponse_forgetPending (s : State) : (s.endResponse).forgetPending = false := rfl
@[simp] theorem State.endResponse_serial (s : State) : (s.endResponse).serial = s.serial := rfl
@[simp] theorem State.endResponse_revision (s : State) : (s.endResponse).revision = s.revision := rfl
@[simp] theorem State.endResponse_batch (s : State) : (s.endResponse).batch = s.batch := rfl
@[simp] theorem State.endResponse_freeCount (s : State) : (s.endResponse).freeCount = s.freeCount := rfl
@[simp] theorem State.endResponse_pending (s : State) : (s.endResponse).pending = s.pending := rfl

/-! ### `State.evaluated` -/

@[simp] theorem State.evaluated_porAsserted (late : Bool) (r : Request) (data : List Byte) (s : State) : (s.evaluated late r data).porAsserted = s.porAsserted := rfl
@[simp] theorem State.evaluated_rqrstIn (late : Bool) (r : Request) (data : List Byte) (s : State) : (s.evaluated late r data).rqrstIn = s.rqrstIn := rfl
@[simp] theorem State.evaluated_pulse (late : Bool) (r : Request) (data : List Byte) (s : State) : (s.evaluated late r data).pulse = s.pulse := rfl
@[simp] theorem State.evaluated_tickCount (late : Bool) (r : Request) (data : List Byte) (s : State) : (s.evaluated late r data).tickCount = s.tickCount := rfl
@[simp] theorem State.evaluated_transit (late : Bool) (r : Request) (data : List Byte) (s : State) : (s.evaluated late r data).transit = s.transit := rfl
@[simp] theorem State.evaluated_nextPosition (late : Bool) (r : Request) (data : List Byte) (s : State) : (s.evaluated late r data).nextPosition = s.nextPosition := rfl
@[simp] theorem State.evaluated_presented (late : Bool) (r : Request) (data : List Byte) (s : State) : (s.evaluated late r data).presented = s.presented := rfl
@[simp] theorem State.evaluated_answerQueue (late : Bool) (r : Request) (data : List Byte) (s : State) : (s.evaluated late r data).answerQueue = s.answerQueue := rfl
@[simp] theorem State.evaluated_issueList (late : Bool) (r : Request) (data : List Byte) (s : State) : (s.evaluated late r data).issueList = s.issueList := rfl
@[simp] theorem State.evaluated_fairness (late : Bool) (r : Request) (data : List Byte) (s : State) : (s.evaluated late r data).fairness = s.fairness := rfl
@[simp] theorem State.evaluated_holds (late : Bool) (r : Request) (data : List Byte) (s : State) : (s.evaluated late r data).holds = s.holds := rfl
@[simp] theorem State.evaluated_nextHoldId (late : Bool) (r : Request) (data : List Byte) (s : State) : (s.evaluated late r data).nextHoldId = s.nextHoldId := rfl
@[simp] theorem State.evaluated_refusedHolds (late : Bool) (r : Request) (data : List Byte) (s : State) : (s.evaluated late r data).refusedHolds = s.refusedHolds := rfl
@[simp] theorem State.evaluated_noHold (late : Bool) (r : Request) (data : List Byte) (s : State) : (s.evaluated late r data).noHold = s.noHold := rfl
@[simp] theorem State.evaluated_divider (late : Bool) (r : Request) (data : List Byte) (s : State) : (s.evaluated late r data).divider = s.divider := rfl
@[simp] theorem State.evaluated_budgetDue (late : Bool) (r : Request) (data : List Byte) (s : State) : (s.evaluated late r data).budgetDue = s.budgetDue := rfl
@[simp] theorem State.evaluated_store (late : Bool) (r : Request) (data : List Byte) (s : State) : (s.evaluated late r data).store = s.store := rfl
@[simp] theorem State.evaluated_log (late : Bool) (r : Request) (data : List Byte) (s : State) : (s.evaluated late r data).log = s.log := rfl
@[simp] theorem State.evaluated_nextSeq (late : Bool) (r : Request) (data : List Byte) (s : State) : (s.evaluated late r data).nextSeq = s.nextSeq := rfl
@[simp] theorem State.evaluated_lost (late : Bool) (r : Request) (data : List Byte) (s : State) : (s.evaluated late r data).lost = s.lost := rfl
@[simp] theorem State.evaluated_traceMode (late : Bool) (r : Request) (data : List Byte) (s : State) : (s.evaluated late r data).traceMode = s.traceMode := rfl
@[simp] theorem State.evaluated_threshold (late : Bool) (r : Request) (data : List Byte) (s : State) : (s.evaluated late r data).threshold = s.threshold := rfl
@[simp] theorem State.evaluated_protocolRecords (late : Bool) (r : Request) (data : List Byte) (s : State) : (s.evaluated late r data).protocolRecords = s.protocolRecords := rfl
@[simp] theorem State.evaluated_injected (late : Bool) (r : Request) (data : List Byte) (s : State) : (s.evaluated late r data).injected = s.injected := rfl
@[simp] theorem State.evaluated_nextAccessId (late : Bool) (r : Request) (data : List Byte) (s : State) : (s.evaluated late r data).nextAccessId = s.nextAccessId := rfl
@[simp] theorem State.evaluated_receiver (late : Bool) (r : Request) (data : List Byte) (s : State) : (s.evaluated late r data).receiver = s.receiver := rfl
@[simp] theorem State.evaluated_gap (late : Bool) (r : Request) (data : List Byte) (s : State) : (s.evaluated late r data).gap = s.gap := rfl
@[simp] theorem State.evaluated_linkAddress (late : Bool) (r : Request) (data : List Byte) (s : State) : (s.evaluated late r data).linkAddress = s.linkAddress := rfl
@[simp] theorem State.evaluated_groupAddress (late : Bool) (r : Request) (data : List Byte) (s : State) : (s.evaluated late r data).groupAddress = s.groupAddress := rfl
@[simp] theorem State.evaluated_attentionEnable (late : Bool) (r : Request) (data : List Byte) (s : State) : (s.evaluated late r data).attentionEnable = s.attentionEnable := rfl
@[simp] theorem State.evaluated_attention (late : Bool) (r : Request) (data : List Byte) (s : State) : (s.evaluated late r data).attention = s.attention := rfl
@[simp] theorem State.evaluated_kept (late : Bool) (r : Request) (data : List Byte) (s : State) : (s.evaluated late r data).kept = s.kept := rfl
@[simp] theorem State.evaluated_checkErrors (late : Bool) (r : Request) (data : List Byte) (s : State) : (s.evaluated late r data).checkErrors = s.checkErrors := rfl
@[simp] theorem State.evaluated_forgetPending (late : Bool) (r : Request) (data : List Byte) (s : State) : (s.evaluated late r data).forgetPending = s.forgetPending := rfl
@[simp] theorem State.evaluated_serial (late : Bool) (r : Request) (data : List Byte) (s : State) : (s.evaluated late r data).serial = s.serial := rfl
@[simp] theorem State.evaluated_revision (late : Bool) (r : Request) (data : List Byte) (s : State) : (s.evaluated late r data).revision = s.revision := rfl
@[simp] theorem State.evaluated_batch (late : Bool) (r : Request) (data : List Byte) (s : State) : (s.evaluated late r data).batch = s.batch := rfl
@[simp] theorem State.evaluated_freeCount (late : Bool) (r : Request) (data : List Byte) (s : State) : (s.evaluated late r data).freeCount = s.freeCount := rfl
@[simp] theorem State.evaluated_pending (late : Bool) (r : Request) (data : List Byte) (s : State) : (s.evaluated late r data).pending = s.pending := rfl

/-! ### `State.removeHold` -/

@[simp] theorem State.removeHold_porAsserted (id : Byte) (s : State) : (s.removeHold id).porAsserted = s.porAsserted := rfl
@[simp] theorem State.removeHold_rqrstIn (id : Byte) (s : State) : (s.removeHold id).rqrstIn = s.rqrstIn := rfl
@[simp] theorem State.removeHold_pulse (id : Byte) (s : State) : (s.removeHold id).pulse = s.pulse := rfl
@[simp] theorem State.removeHold_eventLatch (id : Byte) (s : State) : (s.removeHold id).eventLatch = s.eventLatch := rfl
@[simp] theorem State.removeHold_tickCount (id : Byte) (s : State) : (s.removeHold id).tickCount = s.tickCount := rfl
@[simp] theorem State.removeHold_transit (id : Byte) (s : State) : (s.removeHold id).transit = s.transit := rfl
@[simp] theorem State.removeHold_nextPosition (id : Byte) (s : State) : (s.removeHold id).nextPosition = s.nextPosition := rfl
@[simp] theorem State.removeHold_presented (id : Byte) (s : State) : (s.removeHold id).presented = s.presented := rfl
@[simp] theorem State.removeHold_answerQueue (id : Byte) (s : State) : (s.removeHold id).answerQueue = s.answerQueue := rfl
@[simp] theorem State.removeHold_issueList (id : Byte) (s : State) : (s.removeHold id).issueList = s.issueList := rfl
@[simp] theorem State.removeHold_fairness (id : Byte) (s : State) : (s.removeHold id).fairness = s.fairness := rfl
@[simp] theorem State.removeHold_table (id : Byte) (s : State) : (s.removeHold id).table = s.table := rfl
@[simp] theorem State.removeHold_holds (id : Byte) (s : State) :
    (s.removeHold id).holds = s.holds.filter fun h => decide (h.id ≠ id) := rfl
@[simp] theorem State.removeHold_nextHoldId (id : Byte) (s : State) : (s.removeHold id).nextHoldId = s.nextHoldId := rfl
@[simp] theorem State.removeHold_refusedHolds (id : Byte) (s : State) : (s.removeHold id).refusedHolds = s.refusedHolds := rfl
@[simp] theorem State.removeHold_noHold (id : Byte) (s : State) : (s.removeHold id).noHold = s.noHold := rfl
@[simp] theorem State.removeHold_divider (id : Byte) (s : State) : (s.removeHold id).divider = s.divider := rfl
@[simp] theorem State.removeHold_budgetDue (id : Byte) (s : State) : (s.removeHold id).budgetDue = s.budgetDue := rfl
@[simp] theorem State.removeHold_store (id : Byte) (s : State) : (s.removeHold id).store = s.store := rfl
@[simp] theorem State.removeHold_log (id : Byte) (s : State) : (s.removeHold id).log = s.log := rfl
@[simp] theorem State.removeHold_nextSeq (id : Byte) (s : State) : (s.removeHold id).nextSeq = s.nextSeq := rfl
@[simp] theorem State.removeHold_lost (id : Byte) (s : State) : (s.removeHold id).lost = s.lost := rfl
@[simp] theorem State.removeHold_traceMode (id : Byte) (s : State) : (s.removeHold id).traceMode = s.traceMode := rfl
@[simp] theorem State.removeHold_threshold (id : Byte) (s : State) : (s.removeHold id).threshold = s.threshold := rfl
@[simp] theorem State.removeHold_protocolRecords (id : Byte) (s : State) : (s.removeHold id).protocolRecords = s.protocolRecords := rfl
@[simp] theorem State.removeHold_injected (id : Byte) (s : State) : (s.removeHold id).injected = s.injected := rfl
@[simp] theorem State.removeHold_nextAccessId (id : Byte) (s : State) : (s.removeHold id).nextAccessId = s.nextAccessId := rfl
@[simp] theorem State.removeHold_receiver (id : Byte) (s : State) : (s.removeHold id).receiver = s.receiver := rfl
@[simp] theorem State.removeHold_gap (id : Byte) (s : State) : (s.removeHold id).gap = s.gap := rfl
@[simp] theorem State.removeHold_linkAddress (id : Byte) (s : State) : (s.removeHold id).linkAddress = s.linkAddress := rfl
@[simp] theorem State.removeHold_groupAddress (id : Byte) (s : State) : (s.removeHold id).groupAddress = s.groupAddress := rfl
@[simp] theorem State.removeHold_attentionEnable (id : Byte) (s : State) : (s.removeHold id).attentionEnable = s.attentionEnable := rfl
@[simp] theorem State.removeHold_attention (id : Byte) (s : State) : (s.removeHold id).attention = s.attention := rfl
@[simp] theorem State.removeHold_kept (id : Byte) (s : State) : (s.removeHold id).kept = s.kept := rfl
@[simp] theorem State.removeHold_checkErrors (id : Byte) (s : State) : (s.removeHold id).checkErrors = s.checkErrors := rfl
@[simp] theorem State.removeHold_forgetPending (id : Byte) (s : State) : (s.removeHold id).forgetPending = s.forgetPending := rfl
@[simp] theorem State.removeHold_serial (id : Byte) (s : State) : (s.removeHold id).serial = s.serial := rfl
@[simp] theorem State.removeHold_revision (id : Byte) (s : State) : (s.removeHold id).revision = s.revision := rfl
@[simp] theorem State.removeHold_batch (id : Byte) (s : State) : (s.removeHold id).batch = s.batch := rfl
@[simp] theorem State.removeHold_freeCount (id : Byte) (s : State) : (s.removeHold id).freeCount = s.freeCount := rfl
@[simp] theorem State.removeHold_pending (id : Byte) (s : State) : (s.removeHold id).pending = s.pending := rfl

/-! ### `State.updateHold` -/

@[simp] theorem State.updateHold_porAsserted (h : Hold) (s : State) : (s.updateHold h).porAsserted = s.porAsserted := rfl
@[simp] theorem State.updateHold_rqrstIn (h : Hold) (s : State) : (s.updateHold h).rqrstIn = s.rqrstIn := rfl
@[simp] theorem State.updateHold_pulse (h : Hold) (s : State) : (s.updateHold h).pulse = s.pulse := rfl
@[simp] theorem State.updateHold_eventLatch (h : Hold) (s : State) : (s.updateHold h).eventLatch = s.eventLatch := rfl
@[simp] theorem State.updateHold_tickCount (h : Hold) (s : State) : (s.updateHold h).tickCount = s.tickCount := rfl
@[simp] theorem State.updateHold_transit (h : Hold) (s : State) : (s.updateHold h).transit = s.transit := rfl
@[simp] theorem State.updateHold_nextPosition (h : Hold) (s : State) : (s.updateHold h).nextPosition = s.nextPosition := rfl
@[simp] theorem State.updateHold_presented (h : Hold) (s : State) : (s.updateHold h).presented = s.presented := rfl
@[simp] theorem State.updateHold_answerQueue (h : Hold) (s : State) : (s.updateHold h).answerQueue = s.answerQueue := rfl
@[simp] theorem State.updateHold_issueList (h : Hold) (s : State) : (s.updateHold h).issueList = s.issueList := rfl
@[simp] theorem State.updateHold_fairness (h : Hold) (s : State) : (s.updateHold h).fairness = s.fairness := rfl
@[simp] theorem State.updateHold_table (h : Hold) (s : State) : (s.updateHold h).table = s.table := rfl
@[simp] theorem State.updateHold_holds (h : Hold) (s : State) :
    (s.updateHold h).holds = s.holds.map fun g => if g.id = h.id then h else g := rfl
@[simp] theorem State.updateHold_nextHoldId (h : Hold) (s : State) : (s.updateHold h).nextHoldId = s.nextHoldId := rfl
@[simp] theorem State.updateHold_refusedHolds (h : Hold) (s : State) : (s.updateHold h).refusedHolds = s.refusedHolds := rfl
@[simp] theorem State.updateHold_noHold (h : Hold) (s : State) : (s.updateHold h).noHold = s.noHold := rfl
@[simp] theorem State.updateHold_divider (h : Hold) (s : State) : (s.updateHold h).divider = s.divider := rfl
@[simp] theorem State.updateHold_budgetDue (h : Hold) (s : State) : (s.updateHold h).budgetDue = s.budgetDue := rfl
@[simp] theorem State.updateHold_store (h : Hold) (s : State) : (s.updateHold h).store = s.store := rfl
@[simp] theorem State.updateHold_log (h : Hold) (s : State) : (s.updateHold h).log = s.log := rfl
@[simp] theorem State.updateHold_nextSeq (h : Hold) (s : State) : (s.updateHold h).nextSeq = s.nextSeq := rfl
@[simp] theorem State.updateHold_lost (h : Hold) (s : State) : (s.updateHold h).lost = s.lost := rfl
@[simp] theorem State.updateHold_traceMode (h : Hold) (s : State) : (s.updateHold h).traceMode = s.traceMode := rfl
@[simp] theorem State.updateHold_threshold (h : Hold) (s : State) : (s.updateHold h).threshold = s.threshold := rfl
@[simp] theorem State.updateHold_protocolRecords (h : Hold) (s : State) : (s.updateHold h).protocolRecords = s.protocolRecords := rfl
@[simp] theorem State.updateHold_injected (h : Hold) (s : State) : (s.updateHold h).injected = s.injected := rfl
@[simp] theorem State.updateHold_nextAccessId (h : Hold) (s : State) : (s.updateHold h).nextAccessId = s.nextAccessId := rfl
@[simp] theorem State.updateHold_receiver (h : Hold) (s : State) : (s.updateHold h).receiver = s.receiver := rfl
@[simp] theorem State.updateHold_gap (h : Hold) (s : State) : (s.updateHold h).gap = s.gap := rfl
@[simp] theorem State.updateHold_linkAddress (h : Hold) (s : State) : (s.updateHold h).linkAddress = s.linkAddress := rfl
@[simp] theorem State.updateHold_groupAddress (h : Hold) (s : State) : (s.updateHold h).groupAddress = s.groupAddress := rfl
@[simp] theorem State.updateHold_attentionEnable (h : Hold) (s : State) : (s.updateHold h).attentionEnable = s.attentionEnable := rfl
@[simp] theorem State.updateHold_attention (h : Hold) (s : State) : (s.updateHold h).attention = s.attention := rfl
@[simp] theorem State.updateHold_kept (h : Hold) (s : State) : (s.updateHold h).kept = s.kept := rfl
@[simp] theorem State.updateHold_checkErrors (h : Hold) (s : State) : (s.updateHold h).checkErrors = s.checkErrors := rfl
@[simp] theorem State.updateHold_forgetPending (h : Hold) (s : State) : (s.updateHold h).forgetPending = s.forgetPending := rfl
@[simp] theorem State.updateHold_serial (h : Hold) (s : State) : (s.updateHold h).serial = s.serial := rfl
@[simp] theorem State.updateHold_revision (h : Hold) (s : State) : (s.updateHold h).revision = s.revision := rfl
@[simp] theorem State.updateHold_batch (h : Hold) (s : State) : (s.updateHold h).batch = s.batch := rfl
@[simp] theorem State.updateHold_freeCount (h : Hold) (s : State) : (s.updateHold h).freeCount = s.freeCount := rfl
@[simp] theorem State.updateHold_pending (h : Hold) (s : State) : (s.updateHold h).pending = s.pending := rfl

/-! ### `State.accepted` -/

@[simp] theorem State.accepted_porAsserted (s : State) : (s.accepted).porAsserted = s.porAsserted := rfl
@[simp] theorem State.accepted_rqrstIn (s : State) : (s.accepted).rqrstIn = s.rqrstIn := rfl
@[simp] theorem State.accepted_pulse (s : State) : (s.accepted).pulse = s.pulse := rfl
@[simp] theorem State.accepted_eventLatch (s : State) : (s.accepted).eventLatch = s.eventLatch := rfl
@[simp] theorem State.accepted_tickCount (s : State) : (s.accepted).tickCount = s.tickCount := rfl
@[simp] theorem State.accepted_transit (s : State) : (s.accepted).transit = s.transit := rfl
@[simp] theorem State.accepted_nextPosition (s : State) : (s.accepted).nextPosition = s.nextPosition + 1 := rfl
@[simp] theorem State.accepted_presented (s : State) : (s.accepted).presented = none := rfl
@[simp] theorem State.accepted_answerQueue (s : State) : (s.accepted).answerQueue = s.answerQueue := rfl
@[simp] theorem State.accepted_issueList (s : State) : (s.accepted).issueList = s.issueList := rfl
@[simp] theorem State.accepted_fairness (s : State) : (s.accepted).fairness = s.fairness := rfl
@[simp] theorem State.accepted_table (s : State) : (s.accepted).table = s.table := rfl
@[simp] theorem State.accepted_holds (s : State) : (s.accepted).holds = s.holds := rfl
@[simp] theorem State.accepted_nextHoldId (s : State) : (s.accepted).nextHoldId = s.nextHoldId := rfl
@[simp] theorem State.accepted_refusedHolds (s : State) : (s.accepted).refusedHolds = s.refusedHolds := rfl
@[simp] theorem State.accepted_noHold (s : State) : (s.accepted).noHold = s.noHold := rfl
@[simp] theorem State.accepted_divider (s : State) : (s.accepted).divider = s.divider := rfl
@[simp] theorem State.accepted_budgetDue (s : State) : (s.accepted).budgetDue = s.budgetDue := rfl
@[simp] theorem State.accepted_store (s : State) : (s.accepted).store = s.store := rfl
@[simp] theorem State.accepted_log (s : State) : (s.accepted).log = s.log := rfl
@[simp] theorem State.accepted_nextSeq (s : State) : (s.accepted).nextSeq = s.nextSeq := rfl
@[simp] theorem State.accepted_lost (s : State) : (s.accepted).lost = s.lost := rfl
@[simp] theorem State.accepted_traceMode (s : State) : (s.accepted).traceMode = s.traceMode := rfl
@[simp] theorem State.accepted_threshold (s : State) : (s.accepted).threshold = s.threshold := rfl
@[simp] theorem State.accepted_protocolRecords (s : State) : (s.accepted).protocolRecords = s.protocolRecords := rfl
@[simp] theorem State.accepted_injected (s : State) : (s.accepted).injected = s.injected := rfl
@[simp] theorem State.accepted_nextAccessId (s : State) : (s.accepted).nextAccessId = s.nextAccessId := rfl
@[simp] theorem State.accepted_receiver (s : State) : (s.accepted).receiver = s.receiver := rfl
@[simp] theorem State.accepted_gap (s : State) : (s.accepted).gap = s.gap := rfl
@[simp] theorem State.accepted_linkAddress (s : State) : (s.accepted).linkAddress = s.linkAddress := rfl
@[simp] theorem State.accepted_groupAddress (s : State) : (s.accepted).groupAddress = s.groupAddress := rfl
@[simp] theorem State.accepted_attentionEnable (s : State) : (s.accepted).attentionEnable = s.attentionEnable := rfl
@[simp] theorem State.accepted_attention (s : State) : (s.accepted).attention = s.attention := rfl
@[simp] theorem State.accepted_kept (s : State) : (s.accepted).kept = s.kept := rfl
@[simp] theorem State.accepted_checkErrors (s : State) : (s.accepted).checkErrors = s.checkErrors := rfl
@[simp] theorem State.accepted_forgetPending (s : State) : (s.accepted).forgetPending = s.forgetPending := rfl
@[simp] theorem State.accepted_serial (s : State) : (s.accepted).serial = s.serial := rfl
@[simp] theorem State.accepted_revision (s : State) : (s.accepted).revision = s.revision := rfl
@[simp] theorem State.accepted_batch (s : State) : (s.accepted).batch = s.batch := rfl
@[simp] theorem State.accepted_freeCount (s : State) : (s.accepted).freeCount = s.freeCount := rfl
@[simp] theorem State.accepted_pending (s : State) : (s.accepted).pending = s.pending := rfl

/-! ### `State.leavePresented` -/

@[simp] theorem State.leavePresented_porAsserted (r : Request) (s : State) : (s.leavePresented r).porAsserted = s.porAsserted := rfl
@[simp] theorem State.leavePresented_rqrstIn (r : Request) (s : State) : (s.leavePresented r).rqrstIn = s.rqrstIn := rfl
@[simp] theorem State.leavePresented_pulse (r : Request) (s : State) : (s.leavePresented r).pulse = s.pulse := rfl
@[simp] theorem State.leavePresented_eventLatch (r : Request) (s : State) : (s.leavePresented r).eventLatch = s.eventLatch := rfl
@[simp] theorem State.leavePresented_tickCount (r : Request) (s : State) : (s.leavePresented r).tickCount = s.tickCount := rfl
@[simp] theorem State.leavePresented_transit (r : Request) (s : State) : (s.leavePresented r).transit = s.transit := rfl
@[simp] theorem State.leavePresented_nextPosition (r : Request) (s : State) : (s.leavePresented r).nextPosition = s.nextPosition := rfl
@[simp] theorem State.leavePresented_presented (r : Request) (s : State) :
    (s.leavePresented r).presented = if s.portFree r then some r else s.presented := rfl
@[simp] theorem State.leavePresented_answerQueue (r : Request) (s : State) : (s.leavePresented r).answerQueue = s.answerQueue := rfl
@[simp] theorem State.leavePresented_issueList (r : Request) (s : State) : (s.leavePresented r).issueList = s.issueList := rfl
@[simp] theorem State.leavePresented_fairness (r : Request) (s : State) : (s.leavePresented r).fairness = s.fairness := rfl
@[simp] theorem State.leavePresented_table (r : Request) (s : State) : (s.leavePresented r).table = s.table := rfl
@[simp] theorem State.leavePresented_holds (r : Request) (s : State) : (s.leavePresented r).holds = s.holds := rfl
@[simp] theorem State.leavePresented_nextHoldId (r : Request) (s : State) : (s.leavePresented r).nextHoldId = s.nextHoldId := rfl
@[simp] theorem State.leavePresented_refusedHolds (r : Request) (s : State) : (s.leavePresented r).refusedHolds = s.refusedHolds := rfl
@[simp] theorem State.leavePresented_noHold (r : Request) (s : State) : (s.leavePresented r).noHold = s.noHold := rfl
@[simp] theorem State.leavePresented_divider (r : Request) (s : State) : (s.leavePresented r).divider = s.divider := rfl
@[simp] theorem State.leavePresented_budgetDue (r : Request) (s : State) : (s.leavePresented r).budgetDue = s.budgetDue := rfl
@[simp] theorem State.leavePresented_store (r : Request) (s : State) : (s.leavePresented r).store = s.store := rfl
@[simp] theorem State.leavePresented_log (r : Request) (s : State) : (s.leavePresented r).log = s.log := rfl
@[simp] theorem State.leavePresented_nextSeq (r : Request) (s : State) : (s.leavePresented r).nextSeq = s.nextSeq := rfl
@[simp] theorem State.leavePresented_lost (r : Request) (s : State) : (s.leavePresented r).lost = s.lost := rfl
@[simp] theorem State.leavePresented_traceMode (r : Request) (s : State) : (s.leavePresented r).traceMode = s.traceMode := rfl
@[simp] theorem State.leavePresented_threshold (r : Request) (s : State) : (s.leavePresented r).threshold = s.threshold := rfl
@[simp] theorem State.leavePresented_protocolRecords (r : Request) (s : State) : (s.leavePresented r).protocolRecords = s.protocolRecords := rfl
@[simp] theorem State.leavePresented_injected (r : Request) (s : State) : (s.leavePresented r).injected = s.injected := rfl
@[simp] theorem State.leavePresented_nextAccessId (r : Request) (s : State) : (s.leavePresented r).nextAccessId = s.nextAccessId := rfl
@[simp] theorem State.leavePresented_receiver (r : Request) (s : State) : (s.leavePresented r).receiver = s.receiver := rfl
@[simp] theorem State.leavePresented_gap (r : Request) (s : State) : (s.leavePresented r).gap = s.gap := rfl
@[simp] theorem State.leavePresented_linkAddress (r : Request) (s : State) : (s.leavePresented r).linkAddress = s.linkAddress := rfl
@[simp] theorem State.leavePresented_groupAddress (r : Request) (s : State) : (s.leavePresented r).groupAddress = s.groupAddress := rfl
@[simp] theorem State.leavePresented_attentionEnable (r : Request) (s : State) : (s.leavePresented r).attentionEnable = s.attentionEnable := rfl
@[simp] theorem State.leavePresented_attention (r : Request) (s : State) : (s.leavePresented r).attention = s.attention := rfl
@[simp] theorem State.leavePresented_kept (r : Request) (s : State) : (s.leavePresented r).kept = s.kept := rfl
@[simp] theorem State.leavePresented_checkErrors (r : Request) (s : State) : (s.leavePresented r).checkErrors = s.checkErrors := rfl
@[simp] theorem State.leavePresented_forgetPending (r : Request) (s : State) : (s.leavePresented r).forgetPending = s.forgetPending := rfl
@[simp] theorem State.leavePresented_serial (r : Request) (s : State) : (s.leavePresented r).serial = s.serial := rfl
@[simp] theorem State.leavePresented_revision (r : Request) (s : State) : (s.leavePresented r).revision = s.revision := rfl
@[simp] theorem State.leavePresented_batch (r : Request) (s : State) : (s.leavePresented r).batch = s.batch := rfl
@[simp] theorem State.leavePresented_freeCount (r : Request) (s : State) : (s.leavePresented r).freeCount = s.freeCount := rfl
@[simp] theorem State.leavePresented_pending (r : Request) (s : State) : (s.leavePresented r).pending = s.pending := rfl

/-! ### `State.grantPath` -/

@[simp] theorem State.grantPath_porAsserted (t : Tag) (x : Transaction) (s : State) : (s.grantPath t x).porAsserted = s.porAsserted := rfl
@[simp] theorem State.grantPath_rqrstIn (t : Tag) (x : Transaction) (s : State) : (s.grantPath t x).rqrstIn = s.rqrstIn := rfl
@[simp] theorem State.grantPath_pulse (t : Tag) (x : Transaction) (s : State) : (s.grantPath t x).pulse = s.pulse := rfl
@[simp] theorem State.grantPath_eventLatch (t : Tag) (x : Transaction) (s : State) : (s.grantPath t x).eventLatch = s.eventLatch := rfl
@[simp] theorem State.grantPath_tickCount (t : Tag) (x : Transaction) (s : State) : (s.grantPath t x).tickCount = s.tickCount := rfl
@[simp] theorem State.grantPath_nextPosition (t : Tag) (x : Transaction) (s : State) : (s.grantPath t x).nextPosition = s.nextPosition := rfl
@[simp] theorem State.grantPath_presented (t : Tag) (x : Transaction) (s : State) : (s.grantPath t x).presented = s.presented := rfl
@[simp] theorem State.grantPath_answerQueue (t : Tag) (x : Transaction) (s : State) : (s.grantPath t x).answerQueue = s.answerQueue := rfl
@[simp] theorem State.grantPath_table (t : Tag) (x : Transaction) (s : State) : (s.grantPath t x).table = s.table := rfl
@[simp] theorem State.grantPath_holds (t : Tag) (x : Transaction) (s : State) : (s.grantPath t x).holds = s.holds := rfl
@[simp] theorem State.grantPath_nextHoldId (t : Tag) (x : Transaction) (s : State) : (s.grantPath t x).nextHoldId = s.nextHoldId := rfl
@[simp] theorem State.grantPath_refusedHolds (t : Tag) (x : Transaction) (s : State) : (s.grantPath t x).refusedHolds = s.refusedHolds := rfl
@[simp] theorem State.grantPath_noHold (t : Tag) (x : Transaction) (s : State) : (s.grantPath t x).noHold = s.noHold := rfl
@[simp] theorem State.grantPath_divider (t : Tag) (x : Transaction) (s : State) : (s.grantPath t x).divider = s.divider := rfl
@[simp] theorem State.grantPath_budgetDue (t : Tag) (x : Transaction) (s : State) : (s.grantPath t x).budgetDue = s.budgetDue := rfl
@[simp] theorem State.grantPath_store (t : Tag) (x : Transaction) (s : State) : (s.grantPath t x).store = s.store := rfl
@[simp] theorem State.grantPath_log (t : Tag) (x : Transaction) (s : State) : (s.grantPath t x).log = s.log := rfl
@[simp] theorem State.grantPath_nextSeq (t : Tag) (x : Transaction) (s : State) : (s.grantPath t x).nextSeq = s.nextSeq := rfl
@[simp] theorem State.grantPath_lost (t : Tag) (x : Transaction) (s : State) : (s.grantPath t x).lost = s.lost := rfl
@[simp] theorem State.grantPath_traceMode (t : Tag) (x : Transaction) (s : State) : (s.grantPath t x).traceMode = s.traceMode := rfl
@[simp] theorem State.grantPath_threshold (t : Tag) (x : Transaction) (s : State) : (s.grantPath t x).threshold = s.threshold := rfl
@[simp] theorem State.grantPath_protocolRecords (t : Tag) (x : Transaction) (s : State) : (s.grantPath t x).protocolRecords = s.protocolRecords := rfl
@[simp] theorem State.grantPath_injected (t : Tag) (x : Transaction) (s : State) : (s.grantPath t x).injected = s.injected := rfl
@[simp] theorem State.grantPath_nextAccessId (t : Tag) (x : Transaction) (s : State) : (s.grantPath t x).nextAccessId = s.nextAccessId := rfl
@[simp] theorem State.grantPath_receiver (t : Tag) (x : Transaction) (s : State) : (s.grantPath t x).receiver = s.receiver := rfl
@[simp] theorem State.grantPath_gap (t : Tag) (x : Transaction) (s : State) : (s.grantPath t x).gap = s.gap := rfl
@[simp] theorem State.grantPath_linkAddress (t : Tag) (x : Transaction) (s : State) : (s.grantPath t x).linkAddress = s.linkAddress := rfl
@[simp] theorem State.grantPath_groupAddress (t : Tag) (x : Transaction) (s : State) : (s.grantPath t x).groupAddress = s.groupAddress := rfl
@[simp] theorem State.grantPath_attentionEnable (t : Tag) (x : Transaction) (s : State) : (s.grantPath t x).attentionEnable = s.attentionEnable := rfl
@[simp] theorem State.grantPath_attention (t : Tag) (x : Transaction) (s : State) : (s.grantPath t x).attention = s.attention := rfl
@[simp] theorem State.grantPath_kept (t : Tag) (x : Transaction) (s : State) : (s.grantPath t x).kept = s.kept := rfl
@[simp] theorem State.grantPath_checkErrors (t : Tag) (x : Transaction) (s : State) : (s.grantPath t x).checkErrors = s.checkErrors := rfl
@[simp] theorem State.grantPath_forgetPending (t : Tag) (x : Transaction) (s : State) : (s.grantPath t x).forgetPending = s.forgetPending := rfl
@[simp] theorem State.grantPath_serial (t : Tag) (x : Transaction) (s : State) : (s.grantPath t x).serial = s.serial := rfl
@[simp] theorem State.grantPath_revision (t : Tag) (x : Transaction) (s : State) : (s.grantPath t x).revision = s.revision := rfl
@[simp] theorem State.grantPath_batch (t : Tag) (x : Transaction) (s : State) : (s.grantPath t x).batch = s.batch := rfl
@[simp] theorem State.grantPath_freeCount (t : Tag) (x : Transaction) (s : State) :
    (s.grantPath t x).freeCount = s.freeCount + 1 := rfl
@[simp] theorem State.grantPath_pending (t : Tag) (x : Transaction) (s : State) : (s.grantPath t x).pending = s.pending := rfl

/-! ### `State.updateAccess` -/

@[simp] theorem State.updateAccess_porAsserted (id : Byte) (f : Access → Access) (s : State) : (s.updateAccess id f).porAsserted = s.porAsserted := rfl
@[simp] theorem State.updateAccess_rqrstIn (id : Byte) (f : Access → Access) (s : State) : (s.updateAccess id f).rqrstIn = s.rqrstIn := rfl
@[simp] theorem State.updateAccess_pulse (id : Byte) (f : Access → Access) (s : State) : (s.updateAccess id f).pulse = s.pulse := rfl
@[simp] theorem State.updateAccess_eventLatch (id : Byte) (f : Access → Access) (s : State) : (s.updateAccess id f).eventLatch = s.eventLatch := rfl
@[simp] theorem State.updateAccess_tickCount (id : Byte) (f : Access → Access) (s : State) : (s.updateAccess id f).tickCount = s.tickCount := rfl
@[simp] theorem State.updateAccess_transit (id : Byte) (f : Access → Access) (s : State) : (s.updateAccess id f).transit = s.transit := rfl
@[simp] theorem State.updateAccess_nextPosition (id : Byte) (f : Access → Access) (s : State) : (s.updateAccess id f).nextPosition = s.nextPosition := rfl
@[simp] theorem State.updateAccess_presented (id : Byte) (f : Access → Access) (s : State) : (s.updateAccess id f).presented = s.presented := rfl
@[simp] theorem State.updateAccess_answerQueue (id : Byte) (f : Access → Access) (s : State) : (s.updateAccess id f).answerQueue = s.answerQueue := rfl
@[simp] theorem State.updateAccess_issueList (id : Byte) (f : Access → Access) (s : State) : (s.updateAccess id f).issueList = s.issueList := rfl
@[simp] theorem State.updateAccess_fairness (id : Byte) (f : Access → Access) (s : State) : (s.updateAccess id f).fairness = s.fairness := rfl
@[simp] theorem State.updateAccess_table (id : Byte) (f : Access → Access) (s : State) : (s.updateAccess id f).table = s.table := rfl
@[simp] theorem State.updateAccess_holds (id : Byte) (f : Access → Access) (s : State) : (s.updateAccess id f).holds = s.holds := rfl
@[simp] theorem State.updateAccess_nextHoldId (id : Byte) (f : Access → Access) (s : State) : (s.updateAccess id f).nextHoldId = s.nextHoldId := rfl
@[simp] theorem State.updateAccess_refusedHolds (id : Byte) (f : Access → Access) (s : State) : (s.updateAccess id f).refusedHolds = s.refusedHolds := rfl
@[simp] theorem State.updateAccess_noHold (id : Byte) (f : Access → Access) (s : State) : (s.updateAccess id f).noHold = s.noHold := rfl
@[simp] theorem State.updateAccess_divider (id : Byte) (f : Access → Access) (s : State) : (s.updateAccess id f).divider = s.divider := rfl
@[simp] theorem State.updateAccess_budgetDue (id : Byte) (f : Access → Access) (s : State) : (s.updateAccess id f).budgetDue = s.budgetDue := rfl
@[simp] theorem State.updateAccess_store (id : Byte) (f : Access → Access) (s : State) : (s.updateAccess id f).store = s.store := rfl
@[simp] theorem State.updateAccess_log (id : Byte) (f : Access → Access) (s : State) : (s.updateAccess id f).log = s.log := rfl
@[simp] theorem State.updateAccess_nextSeq (id : Byte) (f : Access → Access) (s : State) : (s.updateAccess id f).nextSeq = s.nextSeq := rfl
@[simp] theorem State.updateAccess_lost (id : Byte) (f : Access → Access) (s : State) : (s.updateAccess id f).lost = s.lost := rfl
@[simp] theorem State.updateAccess_traceMode (id : Byte) (f : Access → Access) (s : State) : (s.updateAccess id f).traceMode = s.traceMode := rfl
@[simp] theorem State.updateAccess_threshold (id : Byte) (f : Access → Access) (s : State) : (s.updateAccess id f).threshold = s.threshold := rfl
@[simp] theorem State.updateAccess_protocolRecords (id : Byte) (f : Access → Access) (s : State) : (s.updateAccess id f).protocolRecords = s.protocolRecords := rfl
@[simp] theorem State.updateAccess_injected (id : Byte) (f : Access → Access) (s : State) :
    (s.updateAccess id f).injected = s.injected.map fun a => if a.id = id then f a else a := rfl
@[simp] theorem State.updateAccess_nextAccessId (id : Byte) (f : Access → Access) (s : State) : (s.updateAccess id f).nextAccessId = s.nextAccessId := rfl
@[simp] theorem State.updateAccess_receiver (id : Byte) (f : Access → Access) (s : State) : (s.updateAccess id f).receiver = s.receiver := rfl
@[simp] theorem State.updateAccess_gap (id : Byte) (f : Access → Access) (s : State) : (s.updateAccess id f).gap = s.gap := rfl
@[simp] theorem State.updateAccess_linkAddress (id : Byte) (f : Access → Access) (s : State) : (s.updateAccess id f).linkAddress = s.linkAddress := rfl
@[simp] theorem State.updateAccess_groupAddress (id : Byte) (f : Access → Access) (s : State) : (s.updateAccess id f).groupAddress = s.groupAddress := rfl
@[simp] theorem State.updateAccess_attentionEnable (id : Byte) (f : Access → Access) (s : State) : (s.updateAccess id f).attentionEnable = s.attentionEnable := rfl
@[simp] theorem State.updateAccess_attention (id : Byte) (f : Access → Access) (s : State) : (s.updateAccess id f).attention = s.attention := rfl
@[simp] theorem State.updateAccess_kept (id : Byte) (f : Access → Access) (s : State) : (s.updateAccess id f).kept = s.kept := rfl
@[simp] theorem State.updateAccess_checkErrors (id : Byte) (f : Access → Access) (s : State) : (s.updateAccess id f).checkErrors = s.checkErrors := rfl
@[simp] theorem State.updateAccess_forgetPending (id : Byte) (f : Access → Access) (s : State) : (s.updateAccess id f).forgetPending = s.forgetPending := rfl
@[simp] theorem State.updateAccess_serial (id : Byte) (f : Access → Access) (s : State) : (s.updateAccess id f).serial = s.serial := rfl
@[simp] theorem State.updateAccess_revision (id : Byte) (f : Access → Access) (s : State) : (s.updateAccess id f).revision = s.revision := rfl
@[simp] theorem State.updateAccess_batch (id : Byte) (f : Access → Access) (s : State) : (s.updateAccess id f).batch = s.batch := rfl
@[simp] theorem State.updateAccess_freeCount (id : Byte) (f : Access → Access) (s : State) : (s.updateAccess id f).freeCount = s.freeCount := rfl
@[simp] theorem State.updateAccess_pending (id : Byte) (f : Access → Access) (s : State) : (s.updateAccess id f).pending = s.pending := rfl

/-! ### `State.grantInjected` -/

@[simp] theorem State.grantInjected_porAsserted (a : Access) (s : State) : (s.grantInjected a).porAsserted = s.porAsserted := rfl
@[simp] theorem State.grantInjected_rqrstIn (a : Access) (s : State) : (s.grantInjected a).rqrstIn = s.rqrstIn := rfl
@[simp] theorem State.grantInjected_pulse (a : Access) (s : State) : (s.grantInjected a).pulse = s.pulse := rfl
@[simp] theorem State.grantInjected_eventLatch (a : Access) (s : State) : (s.grantInjected a).eventLatch = s.eventLatch := rfl
@[simp] theorem State.grantInjected_tickCount (a : Access) (s : State) : (s.grantInjected a).tickCount = s.tickCount := rfl
@[simp] theorem State.grantInjected_transit (a : Access) (s : State) : (s.grantInjected a).transit = s.transit := rfl
@[simp] theorem State.grantInjected_nextPosition (a : Access) (s : State) : (s.grantInjected a).nextPosition = s.nextPosition := rfl
@[simp] theorem State.grantInjected_presented (a : Access) (s : State) : (s.grantInjected a).presented = s.presented := rfl
@[simp] theorem State.grantInjected_answerQueue (a : Access) (s : State) : (s.grantInjected a).answerQueue = s.answerQueue := rfl
@[simp] theorem State.grantInjected_fairness (a : Access) (s : State) : (s.grantInjected a).fairness = 0 := rfl
@[simp] theorem State.grantInjected_table (a : Access) (s : State) : (s.grantInjected a).table = s.table := rfl
@[simp] theorem State.grantInjected_holds (a : Access) (s : State) : (s.grantInjected a).holds = s.holds := rfl
@[simp] theorem State.grantInjected_nextHoldId (a : Access) (s : State) : (s.grantInjected a).nextHoldId = s.nextHoldId := rfl
@[simp] theorem State.grantInjected_refusedHolds (a : Access) (s : State) : (s.grantInjected a).refusedHolds = s.refusedHolds := rfl
@[simp] theorem State.grantInjected_noHold (a : Access) (s : State) : (s.grantInjected a).noHold = s.noHold := rfl
@[simp] theorem State.grantInjected_divider (a : Access) (s : State) : (s.grantInjected a).divider = s.divider := rfl
@[simp] theorem State.grantInjected_budgetDue (a : Access) (s : State) : (s.grantInjected a).budgetDue = s.budgetDue := rfl
@[simp] theorem State.grantInjected_store (a : Access) (s : State) : (s.grantInjected a).store = s.store := rfl
@[simp] theorem State.grantInjected_log (a : Access) (s : State) : (s.grantInjected a).log = s.log := rfl
@[simp] theorem State.grantInjected_nextSeq (a : Access) (s : State) : (s.grantInjected a).nextSeq = s.nextSeq := rfl
@[simp] theorem State.grantInjected_lost (a : Access) (s : State) : (s.grantInjected a).lost = s.lost := rfl
@[simp] theorem State.grantInjected_traceMode (a : Access) (s : State) : (s.grantInjected a).traceMode = s.traceMode := rfl
@[simp] theorem State.grantInjected_threshold (a : Access) (s : State) : (s.grantInjected a).threshold = s.threshold := rfl
@[simp] theorem State.grantInjected_protocolRecords (a : Access) (s : State) : (s.grantInjected a).protocolRecords = s.protocolRecords := rfl
@[simp] theorem State.grantInjected_nextAccessId (a : Access) (s : State) : (s.grantInjected a).nextAccessId = s.nextAccessId := rfl
@[simp] theorem State.grantInjected_receiver (a : Access) (s : State) : (s.grantInjected a).receiver = s.receiver := rfl
@[simp] theorem State.grantInjected_gap (a : Access) (s : State) : (s.grantInjected a).gap = s.gap := rfl
@[simp] theorem State.grantInjected_linkAddress (a : Access) (s : State) : (s.grantInjected a).linkAddress = s.linkAddress := rfl
@[simp] theorem State.grantInjected_groupAddress (a : Access) (s : State) : (s.grantInjected a).groupAddress = s.groupAddress := rfl
@[simp] theorem State.grantInjected_attentionEnable (a : Access) (s : State) : (s.grantInjected a).attentionEnable = s.attentionEnable := rfl
@[simp] theorem State.grantInjected_attention (a : Access) (s : State) : (s.grantInjected a).attention = s.attention := rfl
@[simp] theorem State.grantInjected_kept (a : Access) (s : State) : (s.grantInjected a).kept = s.kept := rfl
@[simp] theorem State.grantInjected_checkErrors (a : Access) (s : State) : (s.grantInjected a).checkErrors = s.checkErrors := rfl
@[simp] theorem State.grantInjected_forgetPending (a : Access) (s : State) : (s.grantInjected a).forgetPending = s.forgetPending := rfl
@[simp] theorem State.grantInjected_serial (a : Access) (s : State) : (s.grantInjected a).serial = s.serial := rfl
@[simp] theorem State.grantInjected_revision (a : Access) (s : State) : (s.grantInjected a).revision = s.revision := rfl
@[simp] theorem State.grantInjected_batch (a : Access) (s : State) : (s.grantInjected a).batch = s.batch := rfl
@[simp] theorem State.grantInjected_freeCount (a : Access) (s : State) :
    (s.grantInjected a).freeCount = s.freeCount + 1 := rfl
@[simp] theorem State.grantInjected_pending (a : Access) (s : State) : (s.grantInjected a).pending = s.pending := rfl

/-! ### `State.endPulse` -/

@[simp] theorem State.endPulse_porAsserted (s : State) : (s.endPulse).porAsserted = s.porAsserted := rfl
@[simp] theorem State.endPulse_rqrstIn (s : State) : (s.endPulse).rqrstIn = s.rqrstIn := rfl
@[simp] theorem State.endPulse_eventLatch (s : State) : (s.endPulse).eventLatch = s.eventLatch := rfl
@[simp] theorem State.endPulse_tickCount (s : State) : (s.endPulse).tickCount = s.tickCount := rfl
@[simp] theorem State.endPulse_transit (s : State) : (s.endPulse).transit = s.transit := rfl
@[simp] theorem State.endPulse_nextPosition (s : State) : (s.endPulse).nextPosition = s.nextPosition := rfl
@[simp] theorem State.endPulse_presented (s : State) : (s.endPulse).presented = s.presented := rfl
@[simp] theorem State.endPulse_answerQueue (s : State) : (s.endPulse).answerQueue = s.answerQueue := rfl
@[simp] theorem State.endPulse_issueList (s : State) : (s.endPulse).issueList = s.issueList := rfl
@[simp] theorem State.endPulse_fairness (s : State) : (s.endPulse).fairness = s.fairness := rfl
@[simp] theorem State.endPulse_table (s : State) : (s.endPulse).table = s.table := rfl
@[simp] theorem State.endPulse_holds (s : State) : (s.endPulse).holds = s.holds := rfl
@[simp] theorem State.endPulse_nextHoldId (s : State) : (s.endPulse).nextHoldId = s.nextHoldId := rfl
@[simp] theorem State.endPulse_refusedHolds (s : State) : (s.endPulse).refusedHolds = s.refusedHolds := rfl
@[simp] theorem State.endPulse_noHold (s : State) : (s.endPulse).noHold = s.noHold := rfl
@[simp] theorem State.endPulse_divider (s : State) : (s.endPulse).divider = s.divider := rfl
@[simp] theorem State.endPulse_budgetDue (s : State) : (s.endPulse).budgetDue = s.budgetDue := rfl
@[simp] theorem State.endPulse_store (s : State) : (s.endPulse).store = s.store := rfl
@[simp] theorem State.endPulse_log (s : State) : (s.endPulse).log = s.log := rfl
@[simp] theorem State.endPulse_nextSeq (s : State) : (s.endPulse).nextSeq = s.nextSeq := rfl
@[simp] theorem State.endPulse_lost (s : State) : (s.endPulse).lost = s.lost := rfl
@[simp] theorem State.endPulse_traceMode (s : State) : (s.endPulse).traceMode = s.traceMode := rfl
@[simp] theorem State.endPulse_threshold (s : State) : (s.endPulse).threshold = s.threshold := rfl
@[simp] theorem State.endPulse_protocolRecords (s : State) : (s.endPulse).protocolRecords = s.protocolRecords := rfl
@[simp] theorem State.endPulse_injected (s : State) : (s.endPulse).injected = s.injected := rfl
@[simp] theorem State.endPulse_nextAccessId (s : State) : (s.endPulse).nextAccessId = s.nextAccessId := rfl
@[simp] theorem State.endPulse_receiver (s : State) : (s.endPulse).receiver = s.receiver := rfl
@[simp] theorem State.endPulse_gap (s : State) : (s.endPulse).gap = s.gap := rfl
@[simp] theorem State.endPulse_linkAddress (s : State) : (s.endPulse).linkAddress = s.linkAddress := rfl
@[simp] theorem State.endPulse_groupAddress (s : State) : (s.endPulse).groupAddress = s.groupAddress := rfl
@[simp] theorem State.endPulse_attentionEnable (s : State) : (s.endPulse).attentionEnable = s.attentionEnable := rfl
@[simp] theorem State.endPulse_attention (s : State) : (s.endPulse).attention = s.attention := rfl
@[simp] theorem State.endPulse_kept (s : State) : (s.endPulse).kept = s.kept := rfl
@[simp] theorem State.endPulse_checkErrors (s : State) : (s.endPulse).checkErrors = s.checkErrors := rfl
@[simp] theorem State.endPulse_forgetPending (s : State) : (s.endPulse).forgetPending = s.forgetPending := rfl
@[simp] theorem State.endPulse_serial (s : State) : (s.endPulse).serial = s.serial := rfl
@[simp] theorem State.endPulse_revision (s : State) : (s.endPulse).revision = s.revision := rfl
@[simp] theorem State.endPulse_batch (s : State) : (s.endPulse).batch = s.batch := rfl
@[simp] theorem State.endPulse_freeCount (s : State) : (s.endPulse).freeCount = s.freeCount := rfl
@[simp] theorem State.endPulse_pending (s : State) : (s.endPulse).pending = s.pending := rfl

/-! ### `State.stepBudgets` -/

@[simp] theorem State.stepBudgets_porAsserted (s : State) : (s.stepBudgets).porAsserted = s.porAsserted := rfl
@[simp] theorem State.stepBudgets_rqrstIn (s : State) : (s.stepBudgets).rqrstIn = s.rqrstIn := rfl
@[simp] theorem State.stepBudgets_pulse (s : State) : (s.stepBudgets).pulse = s.pulse := rfl
@[simp] theorem State.stepBudgets_eventLatch (s : State) : (s.stepBudgets).eventLatch = s.eventLatch := rfl
@[simp] theorem State.stepBudgets_tickCount (s : State) : (s.stepBudgets).tickCount = s.tickCount := rfl
@[simp] theorem State.stepBudgets_transit (s : State) : (s.stepBudgets).transit = s.transit := rfl
@[simp] theorem State.stepBudgets_nextPosition (s : State) : (s.stepBudgets).nextPosition = s.nextPosition := rfl
@[simp] theorem State.stepBudgets_presented (s : State) : (s.stepBudgets).presented = s.presented := rfl
@[simp] theorem State.stepBudgets_answerQueue (s : State) : (s.stepBudgets).answerQueue = s.answerQueue := rfl
@[simp] theorem State.stepBudgets_issueList (s : State) : (s.stepBudgets).issueList = s.issueList := rfl
@[simp] theorem State.stepBudgets_fairness (s : State) : (s.stepBudgets).fairness = s.fairness := rfl
@[simp] theorem State.stepBudgets_table (s : State) : (s.stepBudgets).table = s.table := rfl
@[simp] theorem State.stepBudgets_nextHoldId (s : State) : (s.stepBudgets).nextHoldId = s.nextHoldId := rfl
@[simp] theorem State.stepBudgets_refusedHolds (s : State) : (s.stepBudgets).refusedHolds = s.refusedHolds := rfl
@[simp] theorem State.stepBudgets_noHold (s : State) : (s.stepBudgets).noHold = s.noHold := rfl
@[simp] theorem State.stepBudgets_divider (s : State) : (s.stepBudgets).divider = s.divider := rfl
@[simp] theorem State.stepBudgets_budgetDue (s : State) : (s.stepBudgets).budgetDue = false := rfl
@[simp] theorem State.stepBudgets_store (s : State) : (s.stepBudgets).store = s.store := rfl
@[simp] theorem State.stepBudgets_log (s : State) : (s.stepBudgets).log = s.log := rfl
@[simp] theorem State.stepBudgets_nextSeq (s : State) : (s.stepBudgets).nextSeq = s.nextSeq := rfl
@[simp] theorem State.stepBudgets_lost (s : State) : (s.stepBudgets).lost = s.lost := rfl
@[simp] theorem State.stepBudgets_traceMode (s : State) : (s.stepBudgets).traceMode = s.traceMode := rfl
@[simp] theorem State.stepBudgets_threshold (s : State) : (s.stepBudgets).threshold = s.threshold := rfl
@[simp] theorem State.stepBudgets_protocolRecords (s : State) : (s.stepBudgets).protocolRecords = s.protocolRecords := rfl
@[simp] theorem State.stepBudgets_injected (s : State) : (s.stepBudgets).injected = s.injected := rfl
@[simp] theorem State.stepBudgets_nextAccessId (s : State) : (s.stepBudgets).nextAccessId = s.nextAccessId := rfl
@[simp] theorem State.stepBudgets_receiver (s : State) : (s.stepBudgets).receiver = s.receiver := rfl
@[simp] theorem State.stepBudgets_gap (s : State) : (s.stepBudgets).gap = s.gap := rfl
@[simp] theorem State.stepBudgets_linkAddress (s : State) : (s.stepBudgets).linkAddress = s.linkAddress := rfl
@[simp] theorem State.stepBudgets_groupAddress (s : State) : (s.stepBudgets).groupAddress = s.groupAddress := rfl
@[simp] theorem State.stepBudgets_attentionEnable (s : State) : (s.stepBudgets).attentionEnable = s.attentionEnable := rfl
@[simp] theorem State.stepBudgets_attention (s : State) : (s.stepBudgets).attention = s.attention := rfl
@[simp] theorem State.stepBudgets_kept (s : State) : (s.stepBudgets).kept = s.kept := rfl
@[simp] theorem State.stepBudgets_checkErrors (s : State) : (s.stepBudgets).checkErrors = s.checkErrors := rfl
@[simp] theorem State.stepBudgets_forgetPending (s : State) : (s.stepBudgets).forgetPending = s.forgetPending := rfl
@[simp] theorem State.stepBudgets_serial (s : State) : (s.stepBudgets).serial = s.serial := rfl
@[simp] theorem State.stepBudgets_revision (s : State) : (s.stepBudgets).revision = s.revision := rfl
@[simp] theorem State.stepBudgets_batch (s : State) : (s.stepBudgets).batch = s.batch := rfl
@[simp] theorem State.stepBudgets_freeCount (s : State) : (s.stepBudgets).freeCount = s.freeCount := rfl
@[simp] theorem State.stepBudgets_pending (s : State) : (s.stepBudgets).pending = s.pending := rfl

/-! ### `State.countTick` -/

@[simp] theorem State.countTick_porAsserted (b : Bool) (s : State) : (s.countTick b).porAsserted = s.porAsserted := rfl
@[simp] theorem State.countTick_rqrstIn (b : Bool) (s : State) : (s.countTick b).rqrstIn = s.rqrstIn := rfl
@[simp] theorem State.countTick_eventLatch (b : Bool) (s : State) : (s.countTick b).eventLatch = s.eventLatch := rfl
@[simp] theorem State.countTick_tickCount (b : Bool) (s : State) : (s.countTick b).tickCount = s.tickCount + 1 := rfl
@[simp] theorem State.countTick_transit (b : Bool) (s : State) : (s.countTick b).transit = s.transit := rfl
@[simp] theorem State.countTick_nextPosition (b : Bool) (s : State) : (s.countTick b).nextPosition = s.nextPosition := rfl
@[simp] theorem State.countTick_presented (b : Bool) (s : State) : (s.countTick b).presented = s.presented := rfl
@[simp] theorem State.countTick_answerQueue (b : Bool) (s : State) : (s.countTick b).answerQueue = s.answerQueue := rfl
@[simp] theorem State.countTick_issueList (b : Bool) (s : State) : (s.countTick b).issueList = s.issueList := rfl
@[simp] theorem State.countTick_fairness (b : Bool) (s : State) : (s.countTick b).fairness = s.fairness := rfl
@[simp] theorem State.countTick_table (b : Bool) (s : State) : (s.countTick b).table = s.table := rfl
@[simp] theorem State.countTick_holds (b : Bool) (s : State) : (s.countTick b).holds = s.holds := rfl
@[simp] theorem State.countTick_nextHoldId (b : Bool) (s : State) : (s.countTick b).nextHoldId = s.nextHoldId := rfl
@[simp] theorem State.countTick_refusedHolds (b : Bool) (s : State) : (s.countTick b).refusedHolds = s.refusedHolds := rfl
@[simp] theorem State.countTick_noHold (b : Bool) (s : State) : (s.countTick b).noHold = s.noHold := rfl
@[simp] theorem State.countTick_store (b : Bool) (s : State) : (s.countTick b).store = s.store := rfl
@[simp] theorem State.countTick_log (b : Bool) (s : State) : (s.countTick b).log = s.log := rfl
@[simp] theorem State.countTick_nextSeq (b : Bool) (s : State) : (s.countTick b).nextSeq = s.nextSeq := rfl
@[simp] theorem State.countTick_lost (b : Bool) (s : State) : (s.countTick b).lost = s.lost := rfl
@[simp] theorem State.countTick_traceMode (b : Bool) (s : State) : (s.countTick b).traceMode = s.traceMode := rfl
@[simp] theorem State.countTick_threshold (b : Bool) (s : State) : (s.countTick b).threshold = s.threshold := rfl
@[simp] theorem State.countTick_protocolRecords (b : Bool) (s : State) : (s.countTick b).protocolRecords = s.protocolRecords := rfl
@[simp] theorem State.countTick_injected (b : Bool) (s : State) : (s.countTick b).injected = s.injected := rfl
@[simp] theorem State.countTick_nextAccessId (b : Bool) (s : State) : (s.countTick b).nextAccessId = s.nextAccessId := rfl
@[simp] theorem State.countTick_receiver (b : Bool) (s : State) : (s.countTick b).receiver = s.receiver := rfl
@[simp] theorem State.countTick_linkAddress (b : Bool) (s : State) : (s.countTick b).linkAddress = s.linkAddress := rfl
@[simp] theorem State.countTick_groupAddress (b : Bool) (s : State) : (s.countTick b).groupAddress = s.groupAddress := rfl
@[simp] theorem State.countTick_attentionEnable (b : Bool) (s : State) : (s.countTick b).attentionEnable = s.attentionEnable := rfl
@[simp] theorem State.countTick_attention (b : Bool) (s : State) : (s.countTick b).attention = s.attention := rfl
@[simp] theorem State.countTick_kept (b : Bool) (s : State) : (s.countTick b).kept = s.kept := rfl
@[simp] theorem State.countTick_checkErrors (b : Bool) (s : State) : (s.countTick b).checkErrors = s.checkErrors := rfl
@[simp] theorem State.countTick_forgetPending (b : Bool) (s : State) : (s.countTick b).forgetPending = s.forgetPending := rfl
@[simp] theorem State.countTick_serial (b : Bool) (s : State) : (s.countTick b).serial = s.serial := rfl
@[simp] theorem State.countTick_revision (b : Bool) (s : State) : (s.countTick b).revision = s.revision := rfl
@[simp] theorem State.countTick_batch (b : Bool) (s : State) : (s.countTick b).batch = s.batch := rfl
@[simp] theorem State.countTick_freeCount (b : Bool) (s : State) : (s.countTick b).freeCount = s.freeCount := rfl
@[simp] theorem State.countTick_pending (b : Bool) (s : State) : (s.countTick b).pending = s.pending := rfl

/-! ### `State.countCheck` -/

@[simp] theorem State.countCheck_porAsserted (f : Frame) (s : State) : (s.countCheck f).porAsserted = s.porAsserted := rfl
@[simp] theorem State.countCheck_rqrstIn (f : Frame) (s : State) : (s.countCheck f).rqrstIn = s.rqrstIn := rfl
@[simp] theorem State.countCheck_pulse (f : Frame) (s : State) : (s.countCheck f).pulse = s.pulse := rfl
@[simp] theorem State.countCheck_eventLatch (f : Frame) (s : State) : (s.countCheck f).eventLatch = s.eventLatch := rfl
@[simp] theorem State.countCheck_tickCount (f : Frame) (s : State) : (s.countCheck f).tickCount = s.tickCount := rfl
@[simp] theorem State.countCheck_transit (f : Frame) (s : State) : (s.countCheck f).transit = s.transit := rfl
@[simp] theorem State.countCheck_nextPosition (f : Frame) (s : State) : (s.countCheck f).nextPosition = s.nextPosition := rfl
@[simp] theorem State.countCheck_presented (f : Frame) (s : State) : (s.countCheck f).presented = s.presented := rfl
@[simp] theorem State.countCheck_answerQueue (f : Frame) (s : State) : (s.countCheck f).answerQueue = s.answerQueue := rfl
@[simp] theorem State.countCheck_issueList (f : Frame) (s : State) : (s.countCheck f).issueList = s.issueList := rfl
@[simp] theorem State.countCheck_fairness (f : Frame) (s : State) : (s.countCheck f).fairness = s.fairness := rfl
@[simp] theorem State.countCheck_table (f : Frame) (s : State) : (s.countCheck f).table = s.table := rfl
@[simp] theorem State.countCheck_holds (f : Frame) (s : State) : (s.countCheck f).holds = s.holds := rfl
@[simp] theorem State.countCheck_nextHoldId (f : Frame) (s : State) : (s.countCheck f).nextHoldId = s.nextHoldId := rfl
@[simp] theorem State.countCheck_refusedHolds (f : Frame) (s : State) : (s.countCheck f).refusedHolds = s.refusedHolds := rfl
@[simp] theorem State.countCheck_noHold (f : Frame) (s : State) : (s.countCheck f).noHold = s.noHold := rfl
@[simp] theorem State.countCheck_divider (f : Frame) (s : State) : (s.countCheck f).divider = s.divider := rfl
@[simp] theorem State.countCheck_budgetDue (f : Frame) (s : State) : (s.countCheck f).budgetDue = s.budgetDue := rfl
@[simp] theorem State.countCheck_store (f : Frame) (s : State) : (s.countCheck f).store = s.store := rfl
@[simp] theorem State.countCheck_log (f : Frame) (s : State) : (s.countCheck f).log = s.log := rfl
@[simp] theorem State.countCheck_nextSeq (f : Frame) (s : State) : (s.countCheck f).nextSeq = s.nextSeq := rfl
@[simp] theorem State.countCheck_lost (f : Frame) (s : State) : (s.countCheck f).lost = s.lost := rfl
@[simp] theorem State.countCheck_traceMode (f : Frame) (s : State) : (s.countCheck f).traceMode = s.traceMode := rfl
@[simp] theorem State.countCheck_threshold (f : Frame) (s : State) : (s.countCheck f).threshold = s.threshold := rfl
@[simp] theorem State.countCheck_protocolRecords (f : Frame) (s : State) : (s.countCheck f).protocolRecords = s.protocolRecords := rfl
@[simp] theorem State.countCheck_injected (f : Frame) (s : State) : (s.countCheck f).injected = s.injected := rfl
@[simp] theorem State.countCheck_nextAccessId (f : Frame) (s : State) : (s.countCheck f).nextAccessId = s.nextAccessId := rfl
@[simp] theorem State.countCheck_receiver (f : Frame) (s : State) : (s.countCheck f).receiver = s.receiver := rfl
@[simp] theorem State.countCheck_gap (f : Frame) (s : State) : (s.countCheck f).gap = s.gap := rfl
@[simp] theorem State.countCheck_linkAddress (f : Frame) (s : State) : (s.countCheck f).linkAddress = s.linkAddress := rfl
@[simp] theorem State.countCheck_groupAddress (f : Frame) (s : State) : (s.countCheck f).groupAddress = s.groupAddress := rfl
@[simp] theorem State.countCheck_attentionEnable (f : Frame) (s : State) : (s.countCheck f).attentionEnable = s.attentionEnable := rfl
@[simp] theorem State.countCheck_attention (f : Frame) (s : State) : (s.countCheck f).attention = s.attention := rfl
@[simp] theorem State.countCheck_kept (f : Frame) (s : State) : (s.countCheck f).kept = s.kept := rfl
@[simp] theorem State.countCheck_checkErrors (f : Frame) (s : State) :
    (s.countCheck f).checkErrors = if f.good then s.checkErrors else min (s.checkErrors + 1) 255 := rfl
@[simp] theorem State.countCheck_forgetPending (f : Frame) (s : State) : (s.countCheck f).forgetPending = s.forgetPending := rfl
@[simp] theorem State.countCheck_serial (f : Frame) (s : State) : (s.countCheck f).serial = s.serial := rfl
@[simp] theorem State.countCheck_revision (f : Frame) (s : State) : (s.countCheck f).revision = s.revision := rfl
@[simp] theorem State.countCheck_batch (f : Frame) (s : State) : (s.countCheck f).batch = s.batch := rfl
@[simp] theorem State.countCheck_freeCount (f : Frame) (s : State) : (s.countCheck f).freeCount = s.freeCount := rfl
@[simp] theorem State.countCheck_pending (f : Frame) (s : State) : (s.countCheck f).pending = s.pending := rfl

/-! ### `State.acceptCommand` -/

@[simp] theorem State.acceptCommand_porAsserted (f : Frame) (s : State) : (s.acceptCommand f).porAsserted = s.porAsserted := rfl
@[simp] theorem State.acceptCommand_rqrstIn (f : Frame) (s : State) : (s.acceptCommand f).rqrstIn = s.rqrstIn := rfl
@[simp] theorem State.acceptCommand_pulse (f : Frame) (s : State) : (s.acceptCommand f).pulse = s.pulse := rfl
@[simp] theorem State.acceptCommand_eventLatch (f : Frame) (s : State) : (s.acceptCommand f).eventLatch = s.eventLatch := rfl
@[simp] theorem State.acceptCommand_tickCount (f : Frame) (s : State) : (s.acceptCommand f).tickCount = s.tickCount := rfl
@[simp] theorem State.acceptCommand_transit (f : Frame) (s : State) : (s.acceptCommand f).transit = s.transit := rfl
@[simp] theorem State.acceptCommand_nextPosition (f : Frame) (s : State) : (s.acceptCommand f).nextPosition = s.nextPosition := rfl
@[simp] theorem State.acceptCommand_presented (f : Frame) (s : State) : (s.acceptCommand f).presented = s.presented := rfl
@[simp] theorem State.acceptCommand_answerQueue (f : Frame) (s : State) : (s.acceptCommand f).answerQueue = s.answerQueue := rfl
@[simp] theorem State.acceptCommand_issueList (f : Frame) (s : State) : (s.acceptCommand f).issueList = s.issueList := rfl
@[simp] theorem State.acceptCommand_fairness (f : Frame) (s : State) : (s.acceptCommand f).fairness = s.fairness := rfl
@[simp] theorem State.acceptCommand_table (f : Frame) (s : State) : (s.acceptCommand f).table = s.table := rfl
@[simp] theorem State.acceptCommand_holds (f : Frame) (s : State) : (s.acceptCommand f).holds = s.holds := rfl
@[simp] theorem State.acceptCommand_nextHoldId (f : Frame) (s : State) : (s.acceptCommand f).nextHoldId = s.nextHoldId := rfl
@[simp] theorem State.acceptCommand_refusedHolds (f : Frame) (s : State) : (s.acceptCommand f).refusedHolds = s.refusedHolds := rfl
@[simp] theorem State.acceptCommand_noHold (f : Frame) (s : State) : (s.acceptCommand f).noHold = s.noHold := rfl
@[simp] theorem State.acceptCommand_divider (f : Frame) (s : State) : (s.acceptCommand f).divider = s.divider := rfl
@[simp] theorem State.acceptCommand_budgetDue (f : Frame) (s : State) : (s.acceptCommand f).budgetDue = s.budgetDue := rfl
@[simp] theorem State.acceptCommand_store (f : Frame) (s : State) : (s.acceptCommand f).store = s.store := rfl
@[simp] theorem State.acceptCommand_log (f : Frame) (s : State) : (s.acceptCommand f).log = s.log := rfl
@[simp] theorem State.acceptCommand_nextSeq (f : Frame) (s : State) : (s.acceptCommand f).nextSeq = s.nextSeq := rfl
@[simp] theorem State.acceptCommand_lost (f : Frame) (s : State) : (s.acceptCommand f).lost = s.lost := rfl
@[simp] theorem State.acceptCommand_traceMode (f : Frame) (s : State) : (s.acceptCommand f).traceMode = s.traceMode := rfl
@[simp] theorem State.acceptCommand_threshold (f : Frame) (s : State) : (s.acceptCommand f).threshold = s.threshold := rfl
@[simp] theorem State.acceptCommand_protocolRecords (f : Frame) (s : State) : (s.acceptCommand f).protocolRecords = s.protocolRecords := rfl
@[simp] theorem State.acceptCommand_injected (f : Frame) (s : State) : (s.acceptCommand f).injected = s.injected := rfl
@[simp] theorem State.acceptCommand_nextAccessId (f : Frame) (s : State) : (s.acceptCommand f).nextAccessId = s.nextAccessId := rfl
@[simp] theorem State.acceptCommand_receiver (f : Frame) (s : State) : (s.acceptCommand f).receiver = .running := rfl
@[simp] theorem State.acceptCommand_gap (f : Frame) (s : State) : (s.acceptCommand f).gap = s.gap := rfl
@[simp] theorem State.acceptCommand_linkAddress (f : Frame) (s : State) : (s.acceptCommand f).linkAddress = s.linkAddress := rfl
@[simp] theorem State.acceptCommand_groupAddress (f : Frame) (s : State) : (s.acceptCommand f).groupAddress = s.groupAddress := rfl
@[simp] theorem State.acceptCommand_attentionEnable (f : Frame) (s : State) : (s.acceptCommand f).attentionEnable = s.attentionEnable := rfl
@[simp] theorem State.acceptCommand_attention (f : Frame) (s : State) : (s.acceptCommand f).attention = s.attention := rfl
@[simp] theorem State.acceptCommand_kept (f : Frame) (s : State) : (s.acceptCommand f).kept = none := rfl
@[simp] theorem State.acceptCommand_checkErrors (f : Frame) (s : State) : (s.acceptCommand f).checkErrors = s.checkErrors := rfl
@[simp] theorem State.acceptCommand_forgetPending (f : Frame) (s : State) : (s.acceptCommand f).forgetPending = s.forgetPending := rfl
@[simp] theorem State.acceptCommand_serial (f : Frame) (s : State) : (s.acceptCommand f).serial = s.serial := rfl
@[simp] theorem State.acceptCommand_revision (f : Frame) (s : State) : (s.acceptCommand f).revision = s.revision := rfl
@[simp] theorem State.acceptCommand_batch (f : Frame) (s : State) :
    (s.acceptCommand f).batch = some (newBatch true f) := rfl
@[simp] theorem State.acceptCommand_freeCount (f : Frame) (s : State) : (s.acceptCommand f).freeCount = s.freeCount := rfl
@[simp] theorem State.acceptCommand_pending (f : Frame) (s : State) : (s.acceptCommand f).pending = s.pending := rfl

/-! ### `State.acceptGroup` -/

@[simp] theorem State.acceptGroup_porAsserted (f : Frame) (s : State) : (s.acceptGroup f).porAsserted = s.porAsserted := rfl
@[simp] theorem State.acceptGroup_rqrstIn (f : Frame) (s : State) : (s.acceptGroup f).rqrstIn = s.rqrstIn := rfl
@[simp] theorem State.acceptGroup_pulse (f : Frame) (s : State) : (s.acceptGroup f).pulse = s.pulse := rfl
@[simp] theorem State.acceptGroup_eventLatch (f : Frame) (s : State) : (s.acceptGroup f).eventLatch = s.eventLatch := rfl
@[simp] theorem State.acceptGroup_tickCount (f : Frame) (s : State) : (s.acceptGroup f).tickCount = s.tickCount := rfl
@[simp] theorem State.acceptGroup_transit (f : Frame) (s : State) : (s.acceptGroup f).transit = s.transit := rfl
@[simp] theorem State.acceptGroup_nextPosition (f : Frame) (s : State) : (s.acceptGroup f).nextPosition = s.nextPosition := rfl
@[simp] theorem State.acceptGroup_presented (f : Frame) (s : State) : (s.acceptGroup f).presented = s.presented := rfl
@[simp] theorem State.acceptGroup_answerQueue (f : Frame) (s : State) : (s.acceptGroup f).answerQueue = s.answerQueue := rfl
@[simp] theorem State.acceptGroup_issueList (f : Frame) (s : State) : (s.acceptGroup f).issueList = s.issueList := rfl
@[simp] theorem State.acceptGroup_fairness (f : Frame) (s : State) : (s.acceptGroup f).fairness = s.fairness := rfl
@[simp] theorem State.acceptGroup_table (f : Frame) (s : State) : (s.acceptGroup f).table = s.table := rfl
@[simp] theorem State.acceptGroup_holds (f : Frame) (s : State) : (s.acceptGroup f).holds = s.holds := rfl
@[simp] theorem State.acceptGroup_nextHoldId (f : Frame) (s : State) : (s.acceptGroup f).nextHoldId = s.nextHoldId := rfl
@[simp] theorem State.acceptGroup_refusedHolds (f : Frame) (s : State) : (s.acceptGroup f).refusedHolds = s.refusedHolds := rfl
@[simp] theorem State.acceptGroup_noHold (f : Frame) (s : State) : (s.acceptGroup f).noHold = s.noHold := rfl
@[simp] theorem State.acceptGroup_divider (f : Frame) (s : State) : (s.acceptGroup f).divider = s.divider := rfl
@[simp] theorem State.acceptGroup_budgetDue (f : Frame) (s : State) : (s.acceptGroup f).budgetDue = s.budgetDue := rfl
@[simp] theorem State.acceptGroup_store (f : Frame) (s : State) : (s.acceptGroup f).store = s.store := rfl
@[simp] theorem State.acceptGroup_log (f : Frame) (s : State) : (s.acceptGroup f).log = s.log := rfl
@[simp] theorem State.acceptGroup_nextSeq (f : Frame) (s : State) : (s.acceptGroup f).nextSeq = s.nextSeq := rfl
@[simp] theorem State.acceptGroup_lost (f : Frame) (s : State) : (s.acceptGroup f).lost = s.lost := rfl
@[simp] theorem State.acceptGroup_traceMode (f : Frame) (s : State) : (s.acceptGroup f).traceMode = s.traceMode := rfl
@[simp] theorem State.acceptGroup_threshold (f : Frame) (s : State) : (s.acceptGroup f).threshold = s.threshold := rfl
@[simp] theorem State.acceptGroup_protocolRecords (f : Frame) (s : State) : (s.acceptGroup f).protocolRecords = s.protocolRecords := rfl
@[simp] theorem State.acceptGroup_injected (f : Frame) (s : State) : (s.acceptGroup f).injected = s.injected := rfl
@[simp] theorem State.acceptGroup_nextAccessId (f : Frame) (s : State) : (s.acceptGroup f).nextAccessId = s.nextAccessId := rfl
@[simp] theorem State.acceptGroup_receiver (f : Frame) (s : State) : (s.acceptGroup f).receiver = .running := rfl
@[simp] theorem State.acceptGroup_gap (f : Frame) (s : State) : (s.acceptGroup f).gap = s.gap := rfl
@[simp] theorem State.acceptGroup_linkAddress (f : Frame) (s : State) : (s.acceptGroup f).linkAddress = s.linkAddress := rfl
@[simp] theorem State.acceptGroup_groupAddress (f : Frame) (s : State) : (s.acceptGroup f).groupAddress = s.groupAddress := rfl
@[simp] theorem State.acceptGroup_attentionEnable (f : Frame) (s : State) : (s.acceptGroup f).attentionEnable = s.attentionEnable := rfl
@[simp] theorem State.acceptGroup_attention (f : Frame) (s : State) : (s.acceptGroup f).attention = s.attention := rfl
@[simp] theorem State.acceptGroup_kept (f : Frame) (s : State) : (s.acceptGroup f).kept = s.kept := rfl
@[simp] theorem State.acceptGroup_checkErrors (f : Frame) (s : State) : (s.acceptGroup f).checkErrors = s.checkErrors := rfl
@[simp] theorem State.acceptGroup_forgetPending (f : Frame) (s : State) : (s.acceptGroup f).forgetPending = s.forgetPending := rfl
@[simp] theorem State.acceptGroup_serial (f : Frame) (s : State) : (s.acceptGroup f).serial = s.serial := rfl
@[simp] theorem State.acceptGroup_revision (f : Frame) (s : State) : (s.acceptGroup f).revision = s.revision := rfl
@[simp] theorem State.acceptGroup_batch (f : Frame) (s : State) :
    (s.acceptGroup f).batch = some (newBatch false f) := rfl
@[simp] theorem State.acceptGroup_freeCount (f : Frame) (s : State) : (s.acceptGroup f).freeCount = s.freeCount := rfl
@[simp] theorem State.acceptGroup_pending (f : Frame) (s : State) : (s.acceptGroup f).pending = s.pending := rfl

/-! ### `State.answer` -/

@[simp] theorem State.answer_porAsserted (c : Command) (st : CmdStatus) (res : List Byte) (s : State) : (s.answer c st res).porAsserted = s.porAsserted := rfl
@[simp] theorem State.answer_rqrstIn (c : Command) (st : CmdStatus) (res : List Byte) (s : State) : (s.answer c st res).rqrstIn = s.rqrstIn := rfl
@[simp] theorem State.answer_pulse (c : Command) (st : CmdStatus) (res : List Byte) (s : State) : (s.answer c st res).pulse = s.pulse := rfl
@[simp] theorem State.answer_eventLatch (c : Command) (st : CmdStatus) (res : List Byte) (s : State) : (s.answer c st res).eventLatch = s.eventLatch := rfl
@[simp] theorem State.answer_tickCount (c : Command) (st : CmdStatus) (res : List Byte) (s : State) : (s.answer c st res).tickCount = s.tickCount := rfl
@[simp] theorem State.answer_transit (c : Command) (st : CmdStatus) (res : List Byte) (s : State) : (s.answer c st res).transit = s.transit := rfl
@[simp] theorem State.answer_nextPosition (c : Command) (st : CmdStatus) (res : List Byte) (s : State) : (s.answer c st res).nextPosition = s.nextPosition := rfl
@[simp] theorem State.answer_presented (c : Command) (st : CmdStatus) (res : List Byte) (s : State) : (s.answer c st res).presented = s.presented := rfl
@[simp] theorem State.answer_answerQueue (c : Command) (st : CmdStatus) (res : List Byte) (s : State) : (s.answer c st res).answerQueue = s.answerQueue := rfl
@[simp] theorem State.answer_issueList (c : Command) (st : CmdStatus) (res : List Byte) (s : State) : (s.answer c st res).issueList = s.issueList := rfl
@[simp] theorem State.answer_fairness (c : Command) (st : CmdStatus) (res : List Byte) (s : State) : (s.answer c st res).fairness = s.fairness := rfl
@[simp] theorem State.answer_table (c : Command) (st : CmdStatus) (res : List Byte) (s : State) : (s.answer c st res).table = s.table := rfl
@[simp] theorem State.answer_holds (c : Command) (st : CmdStatus) (res : List Byte) (s : State) : (s.answer c st res).holds = s.holds := rfl
@[simp] theorem State.answer_nextHoldId (c : Command) (st : CmdStatus) (res : List Byte) (s : State) : (s.answer c st res).nextHoldId = s.nextHoldId := rfl
@[simp] theorem State.answer_refusedHolds (c : Command) (st : CmdStatus) (res : List Byte) (s : State) : (s.answer c st res).refusedHolds = s.refusedHolds := rfl
@[simp] theorem State.answer_noHold (c : Command) (st : CmdStatus) (res : List Byte) (s : State) : (s.answer c st res).noHold = s.noHold := rfl
@[simp] theorem State.answer_divider (c : Command) (st : CmdStatus) (res : List Byte) (s : State) : (s.answer c st res).divider = s.divider := rfl
@[simp] theorem State.answer_budgetDue (c : Command) (st : CmdStatus) (res : List Byte) (s : State) : (s.answer c st res).budgetDue = s.budgetDue := rfl
@[simp] theorem State.answer_store (c : Command) (st : CmdStatus) (res : List Byte) (s : State) : (s.answer c st res).store = s.store := rfl
@[simp] theorem State.answer_log (c : Command) (st : CmdStatus) (res : List Byte) (s : State) : (s.answer c st res).log = s.log := rfl
@[simp] theorem State.answer_nextSeq (c : Command) (st : CmdStatus) (res : List Byte) (s : State) : (s.answer c st res).nextSeq = s.nextSeq := rfl
@[simp] theorem State.answer_lost (c : Command) (st : CmdStatus) (res : List Byte) (s : State) : (s.answer c st res).lost = s.lost := rfl
@[simp] theorem State.answer_traceMode (c : Command) (st : CmdStatus) (res : List Byte) (s : State) : (s.answer c st res).traceMode = s.traceMode := rfl
@[simp] theorem State.answer_threshold (c : Command) (st : CmdStatus) (res : List Byte) (s : State) : (s.answer c st res).threshold = s.threshold := rfl
@[simp] theorem State.answer_protocolRecords (c : Command) (st : CmdStatus) (res : List Byte) (s : State) : (s.answer c st res).protocolRecords = s.protocolRecords := rfl
@[simp] theorem State.answer_injected (c : Command) (st : CmdStatus) (res : List Byte) (s : State) : (s.answer c st res).injected = s.injected := rfl
@[simp] theorem State.answer_nextAccessId (c : Command) (st : CmdStatus) (res : List Byte) (s : State) : (s.answer c st res).nextAccessId = s.nextAccessId := rfl
@[simp] theorem State.answer_receiver (c : Command) (st : CmdStatus) (res : List Byte) (s : State) : (s.answer c st res).receiver = s.receiver := rfl
@[simp] theorem State.answer_gap (c : Command) (st : CmdStatus) (res : List Byte) (s : State) : (s.answer c st res).gap = s.gap := rfl
@[simp] theorem State.answer_linkAddress (c : Command) (st : CmdStatus) (res : List Byte) (s : State) : (s.answer c st res).linkAddress = s.linkAddress := rfl
@[simp] theorem State.answer_groupAddress (c : Command) (st : CmdStatus) (res : List Byte) (s : State) : (s.answer c st res).groupAddress = s.groupAddress := rfl
@[simp] theorem State.answer_attentionEnable (c : Command) (st : CmdStatus) (res : List Byte) (s : State) : (s.answer c st res).attentionEnable = s.attentionEnable := rfl
@[simp] theorem State.answer_attention (c : Command) (st : CmdStatus) (res : List Byte) (s : State) : (s.answer c st res).attention = s.attention := rfl
@[simp] theorem State.answer_kept (c : Command) (st : CmdStatus) (res : List Byte) (s : State) : (s.answer c st res).kept = s.kept := rfl
@[simp] theorem State.answer_checkErrors (c : Command) (st : CmdStatus) (res : List Byte) (s : State) : (s.answer c st res).checkErrors = s.checkErrors := rfl
@[simp] theorem State.answer_forgetPending (c : Command) (st : CmdStatus) (res : List Byte) (s : State) : (s.answer c st res).forgetPending = s.forgetPending := rfl
@[simp] theorem State.answer_serial (c : Command) (st : CmdStatus) (res : List Byte) (s : State) : (s.answer c st res).serial = s.serial := rfl
@[simp] theorem State.answer_revision (c : Command) (st : CmdStatus) (res : List Byte) (s : State) : (s.answer c st res).revision = s.revision := rfl
@[simp] theorem State.answer_batch (c : Command) (st : CmdStatus) (res : List Byte) (s : State) :
    (s.answer c st res).batch = s.batch.map (Batch.answer c st res) := rfl
@[simp] theorem State.answer_freeCount (c : Command) (st : CmdStatus) (res : List Byte) (s : State) : (s.answer c st res).freeCount = s.freeCount := rfl
@[simp] theorem State.answer_pending (c : Command) (st : CmdStatus) (res : List Byte) (s : State) : (s.answer c st res).pending = s.pending := rfl

/-! ### `State.setClearing` -/

@[simp] theorem State.setClearing_porAsserted (c : Option ClearStep) (s : State) : (s.setClearing c).porAsserted = s.porAsserted := rfl
@[simp] theorem State.setClearing_rqrstIn (c : Option ClearStep) (s : State) : (s.setClearing c).rqrstIn = s.rqrstIn := rfl
@[simp] theorem State.setClearing_pulse (c : Option ClearStep) (s : State) : (s.setClearing c).pulse = s.pulse := rfl
@[simp] theorem State.setClearing_eventLatch (c : Option ClearStep) (s : State) : (s.setClearing c).eventLatch = s.eventLatch := rfl
@[simp] theorem State.setClearing_tickCount (c : Option ClearStep) (s : State) : (s.setClearing c).tickCount = s.tickCount := rfl
@[simp] theorem State.setClearing_transit (c : Option ClearStep) (s : State) : (s.setClearing c).transit = s.transit := rfl
@[simp] theorem State.setClearing_nextPosition (c : Option ClearStep) (s : State) : (s.setClearing c).nextPosition = s.nextPosition := rfl
@[simp] theorem State.setClearing_presented (c : Option ClearStep) (s : State) : (s.setClearing c).presented = s.presented := rfl
@[simp] theorem State.setClearing_answerQueue (c : Option ClearStep) (s : State) : (s.setClearing c).answerQueue = s.answerQueue := rfl
@[simp] theorem State.setClearing_issueList (c : Option ClearStep) (s : State) : (s.setClearing c).issueList = s.issueList := rfl
@[simp] theorem State.setClearing_fairness (c : Option ClearStep) (s : State) : (s.setClearing c).fairness = s.fairness := rfl
@[simp] theorem State.setClearing_table (c : Option ClearStep) (s : State) : (s.setClearing c).table = s.table := rfl
@[simp] theorem State.setClearing_holds (c : Option ClearStep) (s : State) : (s.setClearing c).holds = s.holds := rfl
@[simp] theorem State.setClearing_nextHoldId (c : Option ClearStep) (s : State) : (s.setClearing c).nextHoldId = s.nextHoldId := rfl
@[simp] theorem State.setClearing_refusedHolds (c : Option ClearStep) (s : State) : (s.setClearing c).refusedHolds = s.refusedHolds := rfl
@[simp] theorem State.setClearing_noHold (c : Option ClearStep) (s : State) : (s.setClearing c).noHold = s.noHold := rfl
@[simp] theorem State.setClearing_divider (c : Option ClearStep) (s : State) : (s.setClearing c).divider = s.divider := rfl
@[simp] theorem State.setClearing_budgetDue (c : Option ClearStep) (s : State) : (s.setClearing c).budgetDue = s.budgetDue := rfl
@[simp] theorem State.setClearing_store (c : Option ClearStep) (s : State) : (s.setClearing c).store = s.store := rfl
@[simp] theorem State.setClearing_log (c : Option ClearStep) (s : State) : (s.setClearing c).log = s.log := rfl
@[simp] theorem State.setClearing_nextSeq (c : Option ClearStep) (s : State) : (s.setClearing c).nextSeq = s.nextSeq := rfl
@[simp] theorem State.setClearing_lost (c : Option ClearStep) (s : State) : (s.setClearing c).lost = s.lost := rfl
@[simp] theorem State.setClearing_traceMode (c : Option ClearStep) (s : State) : (s.setClearing c).traceMode = s.traceMode := rfl
@[simp] theorem State.setClearing_threshold (c : Option ClearStep) (s : State) : (s.setClearing c).threshold = s.threshold := rfl
@[simp] theorem State.setClearing_protocolRecords (c : Option ClearStep) (s : State) : (s.setClearing c).protocolRecords = s.protocolRecords := rfl
@[simp] theorem State.setClearing_injected (c : Option ClearStep) (s : State) : (s.setClearing c).injected = s.injected := rfl
@[simp] theorem State.setClearing_nextAccessId (c : Option ClearStep) (s : State) : (s.setClearing c).nextAccessId = s.nextAccessId := rfl
@[simp] theorem State.setClearing_receiver (c : Option ClearStep) (s : State) : (s.setClearing c).receiver = s.receiver := rfl
@[simp] theorem State.setClearing_gap (c : Option ClearStep) (s : State) : (s.setClearing c).gap = s.gap := rfl
@[simp] theorem State.setClearing_linkAddress (c : Option ClearStep) (s : State) : (s.setClearing c).linkAddress = s.linkAddress := rfl
@[simp] theorem State.setClearing_groupAddress (c : Option ClearStep) (s : State) : (s.setClearing c).groupAddress = s.groupAddress := rfl
@[simp] theorem State.setClearing_attentionEnable (c : Option ClearStep) (s : State) : (s.setClearing c).attentionEnable = s.attentionEnable := rfl
@[simp] theorem State.setClearing_attention (c : Option ClearStep) (s : State) : (s.setClearing c).attention = s.attention := rfl
@[simp] theorem State.setClearing_kept (c : Option ClearStep) (s : State) : (s.setClearing c).kept = s.kept := rfl
@[simp] theorem State.setClearing_checkErrors (c : Option ClearStep) (s : State) : (s.setClearing c).checkErrors = s.checkErrors := rfl
@[simp] theorem State.setClearing_forgetPending (c : Option ClearStep) (s : State) : (s.setClearing c).forgetPending = s.forgetPending := rfl
@[simp] theorem State.setClearing_serial (c : Option ClearStep) (s : State) : (s.setClearing c).serial = s.serial := rfl
@[simp] theorem State.setClearing_revision (c : Option ClearStep) (s : State) : (s.setClearing c).revision = s.revision := rfl
@[simp] theorem State.setClearing_freeCount (c : Option ClearStep) (s : State) : (s.setClearing c).freeCount = s.freeCount := rfl
@[simp] theorem State.setClearing_pending (c : Option ClearStep) (s : State) : (s.setClearing c).pending = s.pending := rfl

/-! ### `State.setEntry` -/

@[simp] theorem State.setEntry_porAsserted (i : EntryIndex) (e : MatchEntry) (s : State) : (s.setEntry i e).porAsserted = s.porAsserted := rfl
@[simp] theorem State.setEntry_rqrstIn (i : EntryIndex) (e : MatchEntry) (s : State) : (s.setEntry i e).rqrstIn = s.rqrstIn := rfl
@[simp] theorem State.setEntry_pulse (i : EntryIndex) (e : MatchEntry) (s : State) : (s.setEntry i e).pulse = s.pulse := rfl
@[simp] theorem State.setEntry_eventLatch (i : EntryIndex) (e : MatchEntry) (s : State) : (s.setEntry i e).eventLatch = s.eventLatch := rfl
@[simp] theorem State.setEntry_tickCount (i : EntryIndex) (e : MatchEntry) (s : State) : (s.setEntry i e).tickCount = s.tickCount := rfl
@[simp] theorem State.setEntry_transit (i : EntryIndex) (e : MatchEntry) (s : State) : (s.setEntry i e).transit = s.transit := rfl
@[simp] theorem State.setEntry_nextPosition (i : EntryIndex) (e : MatchEntry) (s : State) : (s.setEntry i e).nextPosition = s.nextPosition := rfl
@[simp] theorem State.setEntry_presented (i : EntryIndex) (e : MatchEntry) (s : State) : (s.setEntry i e).presented = s.presented := rfl
@[simp] theorem State.setEntry_answerQueue (i : EntryIndex) (e : MatchEntry) (s : State) : (s.setEntry i e).answerQueue = s.answerQueue := rfl
@[simp] theorem State.setEntry_issueList (i : EntryIndex) (e : MatchEntry) (s : State) : (s.setEntry i e).issueList = s.issueList := rfl
@[simp] theorem State.setEntry_fairness (i : EntryIndex) (e : MatchEntry) (s : State) : (s.setEntry i e).fairness = s.fairness := rfl
@[simp] theorem State.setEntry_table (i : EntryIndex) (e : MatchEntry) (s : State) :
    (s.setEntry i e).table = s.table.set i e := rfl
@[simp] theorem State.setEntry_holds (i : EntryIndex) (e : MatchEntry) (s : State) : (s.setEntry i e).holds = s.holds := rfl
@[simp] theorem State.setEntry_nextHoldId (i : EntryIndex) (e : MatchEntry) (s : State) : (s.setEntry i e).nextHoldId = s.nextHoldId := rfl
@[simp] theorem State.setEntry_refusedHolds (i : EntryIndex) (e : MatchEntry) (s : State) : (s.setEntry i e).refusedHolds = s.refusedHolds := rfl
@[simp] theorem State.setEntry_noHold (i : EntryIndex) (e : MatchEntry) (s : State) : (s.setEntry i e).noHold = s.noHold := rfl
@[simp] theorem State.setEntry_divider (i : EntryIndex) (e : MatchEntry) (s : State) : (s.setEntry i e).divider = s.divider := rfl
@[simp] theorem State.setEntry_budgetDue (i : EntryIndex) (e : MatchEntry) (s : State) : (s.setEntry i e).budgetDue = s.budgetDue := rfl
@[simp] theorem State.setEntry_store (i : EntryIndex) (e : MatchEntry) (s : State) : (s.setEntry i e).store = s.store := rfl
@[simp] theorem State.setEntry_log (i : EntryIndex) (e : MatchEntry) (s : State) : (s.setEntry i e).log = s.log := rfl
@[simp] theorem State.setEntry_nextSeq (i : EntryIndex) (e : MatchEntry) (s : State) : (s.setEntry i e).nextSeq = s.nextSeq := rfl
@[simp] theorem State.setEntry_lost (i : EntryIndex) (e : MatchEntry) (s : State) : (s.setEntry i e).lost = s.lost := rfl
@[simp] theorem State.setEntry_traceMode (i : EntryIndex) (e : MatchEntry) (s : State) : (s.setEntry i e).traceMode = s.traceMode := rfl
@[simp] theorem State.setEntry_threshold (i : EntryIndex) (e : MatchEntry) (s : State) : (s.setEntry i e).threshold = s.threshold := rfl
@[simp] theorem State.setEntry_protocolRecords (i : EntryIndex) (e : MatchEntry) (s : State) : (s.setEntry i e).protocolRecords = s.protocolRecords := rfl
@[simp] theorem State.setEntry_injected (i : EntryIndex) (e : MatchEntry) (s : State) : (s.setEntry i e).injected = s.injected := rfl
@[simp] theorem State.setEntry_nextAccessId (i : EntryIndex) (e : MatchEntry) (s : State) : (s.setEntry i e).nextAccessId = s.nextAccessId := rfl
@[simp] theorem State.setEntry_receiver (i : EntryIndex) (e : MatchEntry) (s : State) : (s.setEntry i e).receiver = s.receiver := rfl
@[simp] theorem State.setEntry_gap (i : EntryIndex) (e : MatchEntry) (s : State) : (s.setEntry i e).gap = s.gap := rfl
@[simp] theorem State.setEntry_linkAddress (i : EntryIndex) (e : MatchEntry) (s : State) : (s.setEntry i e).linkAddress = s.linkAddress := rfl
@[simp] theorem State.setEntry_groupAddress (i : EntryIndex) (e : MatchEntry) (s : State) : (s.setEntry i e).groupAddress = s.groupAddress := rfl
@[simp] theorem State.setEntry_attentionEnable (i : EntryIndex) (e : MatchEntry) (s : State) : (s.setEntry i e).attentionEnable = s.attentionEnable := rfl
@[simp] theorem State.setEntry_attention (i : EntryIndex) (e : MatchEntry) (s : State) : (s.setEntry i e).attention = s.attention := rfl
@[simp] theorem State.setEntry_kept (i : EntryIndex) (e : MatchEntry) (s : State) : (s.setEntry i e).kept = s.kept := rfl
@[simp] theorem State.setEntry_checkErrors (i : EntryIndex) (e : MatchEntry) (s : State) : (s.setEntry i e).checkErrors = s.checkErrors := rfl
@[simp] theorem State.setEntry_forgetPending (i : EntryIndex) (e : MatchEntry) (s : State) : (s.setEntry i e).forgetPending = s.forgetPending := rfl
@[simp] theorem State.setEntry_serial (i : EntryIndex) (e : MatchEntry) (s : State) : (s.setEntry i e).serial = s.serial := rfl
@[simp] theorem State.setEntry_revision (i : EntryIndex) (e : MatchEntry) (s : State) : (s.setEntry i e).revision = s.revision := rfl
@[simp] theorem State.setEntry_batch (i : EntryIndex) (e : MatchEntry) (s : State) : (s.setEntry i e).batch = s.batch := rfl
@[simp] theorem State.setEntry_freeCount (i : EntryIndex) (e : MatchEntry) (s : State) : (s.setEntry i e).freeCount = s.freeCount := rfl
@[simp] theorem State.setEntry_pending (i : EntryIndex) (e : MatchEntry) (s : State) : (s.setEntry i e).pending = s.pending := rfl

/-! ### `State.setTrace` -/

@[simp] theorem State.setTrace_porAsserted (m : TraceMode) (th : Half) (f : Byte) (s : State) : (s.setTrace m th f).porAsserted = s.porAsserted := rfl
@[simp] theorem State.setTrace_rqrstIn (m : TraceMode) (th : Half) (f : Byte) (s : State) : (s.setTrace m th f).rqrstIn = s.rqrstIn := rfl
@[simp] theorem State.setTrace_pulse (m : TraceMode) (th : Half) (f : Byte) (s : State) : (s.setTrace m th f).pulse = s.pulse := rfl
@[simp] theorem State.setTrace_eventLatch (m : TraceMode) (th : Half) (f : Byte) (s : State) : (s.setTrace m th f).eventLatch = s.eventLatch := rfl
@[simp] theorem State.setTrace_tickCount (m : TraceMode) (th : Half) (f : Byte) (s : State) : (s.setTrace m th f).tickCount = s.tickCount := rfl
@[simp] theorem State.setTrace_transit (m : TraceMode) (th : Half) (f : Byte) (s : State) : (s.setTrace m th f).transit = s.transit := rfl
@[simp] theorem State.setTrace_nextPosition (m : TraceMode) (th : Half) (f : Byte) (s : State) : (s.setTrace m th f).nextPosition = s.nextPosition := rfl
@[simp] theorem State.setTrace_presented (m : TraceMode) (th : Half) (f : Byte) (s : State) : (s.setTrace m th f).presented = s.presented := rfl
@[simp] theorem State.setTrace_answerQueue (m : TraceMode) (th : Half) (f : Byte) (s : State) : (s.setTrace m th f).answerQueue = s.answerQueue := rfl
@[simp] theorem State.setTrace_issueList (m : TraceMode) (th : Half) (f : Byte) (s : State) : (s.setTrace m th f).issueList = s.issueList := rfl
@[simp] theorem State.setTrace_fairness (m : TraceMode) (th : Half) (f : Byte) (s : State) : (s.setTrace m th f).fairness = s.fairness := rfl
@[simp] theorem State.setTrace_table (m : TraceMode) (th : Half) (f : Byte) (s : State) : (s.setTrace m th f).table = s.table := rfl
@[simp] theorem State.setTrace_holds (m : TraceMode) (th : Half) (f : Byte) (s : State) : (s.setTrace m th f).holds = s.holds := rfl
@[simp] theorem State.setTrace_nextHoldId (m : TraceMode) (th : Half) (f : Byte) (s : State) : (s.setTrace m th f).nextHoldId = s.nextHoldId := rfl
@[simp] theorem State.setTrace_refusedHolds (m : TraceMode) (th : Half) (f : Byte) (s : State) : (s.setTrace m th f).refusedHolds = s.refusedHolds := rfl
@[simp] theorem State.setTrace_noHold (m : TraceMode) (th : Half) (f : Byte) (s : State) : (s.setTrace m th f).noHold = s.noHold := rfl
@[simp] theorem State.setTrace_divider (m : TraceMode) (th : Half) (f : Byte) (s : State) : (s.setTrace m th f).divider = s.divider := rfl
@[simp] theorem State.setTrace_budgetDue (m : TraceMode) (th : Half) (f : Byte) (s : State) : (s.setTrace m th f).budgetDue = s.budgetDue := rfl
@[simp] theorem State.setTrace_store (m : TraceMode) (th : Half) (f : Byte) (s : State) : (s.setTrace m th f).store = s.store := rfl
@[simp] theorem State.setTrace_log (m : TraceMode) (th : Half) (f : Byte) (s : State) :
    (s.setTrace m th f).log = if f.getLsbD 1 then [] else s.log := rfl
@[simp] theorem State.setTrace_nextSeq (m : TraceMode) (th : Half) (f : Byte) (s : State) : (s.setTrace m th f).nextSeq = s.nextSeq := rfl
@[simp] theorem State.setTrace_lost (m : TraceMode) (th : Half) (f : Byte) (s : State) :
    (s.setTrace m th f).lost = if f.getLsbD 2 then 0 else s.lost := rfl
@[simp] theorem State.setTrace_traceMode (m : TraceMode) (th : Half) (f : Byte) (s : State) :
    (s.setTrace m th f).traceMode = m := rfl
@[simp] theorem State.setTrace_threshold (m : TraceMode) (th : Half) (f : Byte) (s : State) :
    (s.setTrace m th f).threshold = th.toNat := rfl
@[simp] theorem State.setTrace_protocolRecords (m : TraceMode) (th : Half) (f : Byte) (s : State) :
    (s.setTrace m th f).protocolRecords = f.getLsbD 0 := rfl
@[simp] theorem State.setTrace_injected (m : TraceMode) (th : Half) (f : Byte) (s : State) : (s.setTrace m th f).injected = s.injected := rfl
@[simp] theorem State.setTrace_nextAccessId (m : TraceMode) (th : Half) (f : Byte) (s : State) : (s.setTrace m th f).nextAccessId = s.nextAccessId := rfl
@[simp] theorem State.setTrace_receiver (m : TraceMode) (th : Half) (f : Byte) (s : State) : (s.setTrace m th f).receiver = s.receiver := rfl
@[simp] theorem State.setTrace_gap (m : TraceMode) (th : Half) (f : Byte) (s : State) : (s.setTrace m th f).gap = s.gap := rfl
@[simp] theorem State.setTrace_linkAddress (m : TraceMode) (th : Half) (f : Byte) (s : State) : (s.setTrace m th f).linkAddress = s.linkAddress := rfl
@[simp] theorem State.setTrace_groupAddress (m : TraceMode) (th : Half) (f : Byte) (s : State) : (s.setTrace m th f).groupAddress = s.groupAddress := rfl
@[simp] theorem State.setTrace_attentionEnable (m : TraceMode) (th : Half) (f : Byte) (s : State) : (s.setTrace m th f).attentionEnable = s.attentionEnable := rfl
@[simp] theorem State.setTrace_attention (m : TraceMode) (th : Half) (f : Byte) (s : State) : (s.setTrace m th f).attention = s.attention := rfl
@[simp] theorem State.setTrace_kept (m : TraceMode) (th : Half) (f : Byte) (s : State) : (s.setTrace m th f).kept = s.kept := rfl
@[simp] theorem State.setTrace_checkErrors (m : TraceMode) (th : Half) (f : Byte) (s : State) : (s.setTrace m th f).checkErrors = s.checkErrors := rfl
@[simp] theorem State.setTrace_forgetPending (m : TraceMode) (th : Half) (f : Byte) (s : State) : (s.setTrace m th f).forgetPending = s.forgetPending := rfl
@[simp] theorem State.setTrace_serial (m : TraceMode) (th : Half) (f : Byte) (s : State) : (s.setTrace m th f).serial = s.serial := rfl
@[simp] theorem State.setTrace_revision (m : TraceMode) (th : Half) (f : Byte) (s : State) : (s.setTrace m th f).revision = s.revision := rfl
@[simp] theorem State.setTrace_batch (m : TraceMode) (th : Half) (f : Byte) (s : State) : (s.setTrace m th f).batch = s.batch := rfl
@[simp] theorem State.setTrace_freeCount (m : TraceMode) (th : Half) (f : Byte) (s : State) : (s.setTrace m th f).freeCount = s.freeCount := rfl
@[simp] theorem State.setTrace_pending (m : TraceMode) (th : Half) (f : Byte) (s : State) : (s.setTrace m th f).pending = s.pending := rfl

/-! ### `State.inject` -/

@[simp] theorem State.inject_porAsserted (k : AccessKind) (a : Word) (z : Size) (d : List Byte) (s : State) : (s.inject k a z d).porAsserted = s.porAsserted := rfl
@[simp] theorem State.inject_rqrstIn (k : AccessKind) (a : Word) (z : Size) (d : List Byte) (s : State) : (s.inject k a z d).rqrstIn = s.rqrstIn := rfl
@[simp] theorem State.inject_pulse (k : AccessKind) (a : Word) (z : Size) (d : List Byte) (s : State) : (s.inject k a z d).pulse = s.pulse := rfl
@[simp] theorem State.inject_eventLatch (k : AccessKind) (a : Word) (z : Size) (d : List Byte) (s : State) : (s.inject k a z d).eventLatch = s.eventLatch := rfl
@[simp] theorem State.inject_tickCount (k : AccessKind) (a : Word) (z : Size) (d : List Byte) (s : State) : (s.inject k a z d).tickCount = s.tickCount := rfl
@[simp] theorem State.inject_transit (k : AccessKind) (a : Word) (z : Size) (d : List Byte) (s : State) : (s.inject k a z d).transit = s.transit := rfl
@[simp] theorem State.inject_nextPosition (k : AccessKind) (a : Word) (z : Size) (d : List Byte) (s : State) : (s.inject k a z d).nextPosition = s.nextPosition := rfl
@[simp] theorem State.inject_presented (k : AccessKind) (a : Word) (z : Size) (d : List Byte) (s : State) : (s.inject k a z d).presented = s.presented := rfl
@[simp] theorem State.inject_answerQueue (k : AccessKind) (a : Word) (z : Size) (d : List Byte) (s : State) : (s.inject k a z d).answerQueue = s.answerQueue := rfl
@[simp] theorem State.inject_issueList (k : AccessKind) (a : Word) (z : Size) (d : List Byte) (s : State) : (s.inject k a z d).issueList = s.issueList := rfl
@[simp] theorem State.inject_fairness (k : AccessKind) (a : Word) (z : Size) (d : List Byte) (s : State) : (s.inject k a z d).fairness = s.fairness := rfl
@[simp] theorem State.inject_table (k : AccessKind) (a : Word) (z : Size) (d : List Byte) (s : State) : (s.inject k a z d).table = s.table := rfl
@[simp] theorem State.inject_holds (k : AccessKind) (a : Word) (z : Size) (d : List Byte) (s : State) : (s.inject k a z d).holds = s.holds := rfl
@[simp] theorem State.inject_nextHoldId (k : AccessKind) (a : Word) (z : Size) (d : List Byte) (s : State) : (s.inject k a z d).nextHoldId = s.nextHoldId := rfl
@[simp] theorem State.inject_refusedHolds (k : AccessKind) (a : Word) (z : Size) (d : List Byte) (s : State) : (s.inject k a z d).refusedHolds = s.refusedHolds := rfl
@[simp] theorem State.inject_noHold (k : AccessKind) (a : Word) (z : Size) (d : List Byte) (s : State) : (s.inject k a z d).noHold = s.noHold := rfl
@[simp] theorem State.inject_divider (k : AccessKind) (a : Word) (z : Size) (d : List Byte) (s : State) : (s.inject k a z d).divider = s.divider := rfl
@[simp] theorem State.inject_budgetDue (k : AccessKind) (a : Word) (z : Size) (d : List Byte) (s : State) : (s.inject k a z d).budgetDue = s.budgetDue := rfl
@[simp] theorem State.inject_store (k : AccessKind) (a : Word) (z : Size) (d : List Byte) (s : State) : (s.inject k a z d).store = s.store := rfl
@[simp] theorem State.inject_log (k : AccessKind) (a : Word) (z : Size) (d : List Byte) (s : State) : (s.inject k a z d).log = s.log := rfl
@[simp] theorem State.inject_nextSeq (k : AccessKind) (a : Word) (z : Size) (d : List Byte) (s : State) : (s.inject k a z d).nextSeq = s.nextSeq := rfl
@[simp] theorem State.inject_lost (k : AccessKind) (a : Word) (z : Size) (d : List Byte) (s : State) : (s.inject k a z d).lost = s.lost := rfl
@[simp] theorem State.inject_traceMode (k : AccessKind) (a : Word) (z : Size) (d : List Byte) (s : State) : (s.inject k a z d).traceMode = s.traceMode := rfl
@[simp] theorem State.inject_threshold (k : AccessKind) (a : Word) (z : Size) (d : List Byte) (s : State) : (s.inject k a z d).threshold = s.threshold := rfl
@[simp] theorem State.inject_protocolRecords (k : AccessKind) (a : Word) (z : Size) (d : List Byte) (s : State) : (s.inject k a z d).protocolRecords = s.protocolRecords := rfl
@[simp] theorem State.inject_nextAccessId (k : AccessKind) (a : Word) (z : Size) (d : List Byte) (s : State) :
    (s.inject k a z d).nextAccessId = nextAccess s.newAccessId := rfl
@[simp] theorem State.inject_receiver (k : AccessKind) (a : Word) (z : Size) (d : List Byte) (s : State) : (s.inject k a z d).receiver = s.receiver := rfl
@[simp] theorem State.inject_gap (k : AccessKind) (a : Word) (z : Size) (d : List Byte) (s : State) : (s.inject k a z d).gap = s.gap := rfl
@[simp] theorem State.inject_linkAddress (k : AccessKind) (a : Word) (z : Size) (d : List Byte) (s : State) : (s.inject k a z d).linkAddress = s.linkAddress := rfl
@[simp] theorem State.inject_groupAddress (k : AccessKind) (a : Word) (z : Size) (d : List Byte) (s : State) : (s.inject k a z d).groupAddress = s.groupAddress := rfl
@[simp] theorem State.inject_attentionEnable (k : AccessKind) (a : Word) (z : Size) (d : List Byte) (s : State) : (s.inject k a z d).attentionEnable = s.attentionEnable := rfl
@[simp] theorem State.inject_attention (k : AccessKind) (a : Word) (z : Size) (d : List Byte) (s : State) : (s.inject k a z d).attention = s.attention := rfl
@[simp] theorem State.inject_kept (k : AccessKind) (a : Word) (z : Size) (d : List Byte) (s : State) : (s.inject k a z d).kept = s.kept := rfl
@[simp] theorem State.inject_checkErrors (k : AccessKind) (a : Word) (z : Size) (d : List Byte) (s : State) : (s.inject k a z d).checkErrors = s.checkErrors := rfl
@[simp] theorem State.inject_forgetPending (k : AccessKind) (a : Word) (z : Size) (d : List Byte) (s : State) : (s.inject k a z d).forgetPending = s.forgetPending := rfl
@[simp] theorem State.inject_serial (k : AccessKind) (a : Word) (z : Size) (d : List Byte) (s : State) : (s.inject k a z d).serial = s.serial := rfl
@[simp] theorem State.inject_revision (k : AccessKind) (a : Word) (z : Size) (d : List Byte) (s : State) : (s.inject k a z d).revision = s.revision := rfl
@[simp] theorem State.inject_batch (k : AccessKind) (a : Word) (z : Size) (d : List Byte) (s : State) : (s.inject k a z d).batch = s.batch := rfl
@[simp] theorem State.inject_freeCount (k : AccessKind) (a : Word) (z : Size) (d : List Byte) (s : State) : (s.inject k a z d).freeCount = s.freeCount := rfl
@[simp] theorem State.inject_pending (k : AccessKind) (a : Word) (z : Size) (d : List Byte) (s : State) : (s.inject k a z d).pending = s.pending := rfl

/-! ### `State.removeAccess` -/

@[simp] theorem State.removeAccess_porAsserted (id : Byte) (s : State) : (s.removeAccess id).porAsserted = s.porAsserted := rfl
@[simp] theorem State.removeAccess_rqrstIn (id : Byte) (s : State) : (s.removeAccess id).rqrstIn = s.rqrstIn := rfl
@[simp] theorem State.removeAccess_pulse (id : Byte) (s : State) : (s.removeAccess id).pulse = s.pulse := rfl
@[simp] theorem State.removeAccess_eventLatch (id : Byte) (s : State) : (s.removeAccess id).eventLatch = s.eventLatch := rfl
@[simp] theorem State.removeAccess_tickCount (id : Byte) (s : State) : (s.removeAccess id).tickCount = s.tickCount := rfl
@[simp] theorem State.removeAccess_transit (id : Byte) (s : State) : (s.removeAccess id).transit = s.transit := rfl
@[simp] theorem State.removeAccess_nextPosition (id : Byte) (s : State) : (s.removeAccess id).nextPosition = s.nextPosition := rfl
@[simp] theorem State.removeAccess_presented (id : Byte) (s : State) : (s.removeAccess id).presented = s.presented := rfl
@[simp] theorem State.removeAccess_answerQueue (id : Byte) (s : State) : (s.removeAccess id).answerQueue = s.answerQueue := rfl
@[simp] theorem State.removeAccess_issueList (id : Byte) (s : State) : (s.removeAccess id).issueList = s.issueList := rfl
@[simp] theorem State.removeAccess_fairness (id : Byte) (s : State) : (s.removeAccess id).fairness = s.fairness := rfl
@[simp] theorem State.removeAccess_table (id : Byte) (s : State) : (s.removeAccess id).table = s.table := rfl
@[simp] theorem State.removeAccess_holds (id : Byte) (s : State) : (s.removeAccess id).holds = s.holds := rfl
@[simp] theorem State.removeAccess_nextHoldId (id : Byte) (s : State) : (s.removeAccess id).nextHoldId = s.nextHoldId := rfl
@[simp] theorem State.removeAccess_refusedHolds (id : Byte) (s : State) : (s.removeAccess id).refusedHolds = s.refusedHolds := rfl
@[simp] theorem State.removeAccess_noHold (id : Byte) (s : State) : (s.removeAccess id).noHold = s.noHold := rfl
@[simp] theorem State.removeAccess_divider (id : Byte) (s : State) : (s.removeAccess id).divider = s.divider := rfl
@[simp] theorem State.removeAccess_budgetDue (id : Byte) (s : State) : (s.removeAccess id).budgetDue = s.budgetDue := rfl
@[simp] theorem State.removeAccess_store (id : Byte) (s : State) : (s.removeAccess id).store = s.store := rfl
@[simp] theorem State.removeAccess_log (id : Byte) (s : State) : (s.removeAccess id).log = s.log := rfl
@[simp] theorem State.removeAccess_nextSeq (id : Byte) (s : State) : (s.removeAccess id).nextSeq = s.nextSeq := rfl
@[simp] theorem State.removeAccess_lost (id : Byte) (s : State) : (s.removeAccess id).lost = s.lost := rfl
@[simp] theorem State.removeAccess_traceMode (id : Byte) (s : State) : (s.removeAccess id).traceMode = s.traceMode := rfl
@[simp] theorem State.removeAccess_threshold (id : Byte) (s : State) : (s.removeAccess id).threshold = s.threshold := rfl
@[simp] theorem State.removeAccess_protocolRecords (id : Byte) (s : State) : (s.removeAccess id).protocolRecords = s.protocolRecords := rfl
@[simp] theorem State.removeAccess_injected (id : Byte) (s : State) :
    (s.removeAccess id).injected = s.injected.filter fun a => decide (a.id ≠ id) := rfl
@[simp] theorem State.removeAccess_nextAccessId (id : Byte) (s : State) : (s.removeAccess id).nextAccessId = s.nextAccessId := rfl
@[simp] theorem State.removeAccess_receiver (id : Byte) (s : State) : (s.removeAccess id).receiver = s.receiver := rfl
@[simp] theorem State.removeAccess_gap (id : Byte) (s : State) : (s.removeAccess id).gap = s.gap := rfl
@[simp] theorem State.removeAccess_linkAddress (id : Byte) (s : State) : (s.removeAccess id).linkAddress = s.linkAddress := rfl
@[simp] theorem State.removeAccess_groupAddress (id : Byte) (s : State) : (s.removeAccess id).groupAddress = s.groupAddress := rfl
@[simp] theorem State.removeAccess_attentionEnable (id : Byte) (s : State) : (s.removeAccess id).attentionEnable = s.attentionEnable := rfl
@[simp] theorem State.removeAccess_attention (id : Byte) (s : State) : (s.removeAccess id).attention = s.attention := rfl
@[simp] theorem State.removeAccess_kept (id : Byte) (s : State) : (s.removeAccess id).kept = s.kept := rfl
@[simp] theorem State.removeAccess_checkErrors (id : Byte) (s : State) : (s.removeAccess id).checkErrors = s.checkErrors := rfl
@[simp] theorem State.removeAccess_forgetPending (id : Byte) (s : State) : (s.removeAccess id).forgetPending = s.forgetPending := rfl
@[simp] theorem State.removeAccess_serial (id : Byte) (s : State) : (s.removeAccess id).serial = s.serial := rfl
@[simp] theorem State.removeAccess_revision (id : Byte) (s : State) : (s.removeAccess id).revision = s.revision := rfl
@[simp] theorem State.removeAccess_batch (id : Byte) (s : State) : (s.removeAccess id).batch = s.batch := rfl
@[simp] theorem State.removeAccess_freeCount (id : Byte) (s : State) : (s.removeAccess id).freeCount = s.freeCount := rfl
@[simp] theorem State.removeAccess_pending (id : Byte) (s : State) : (s.removeAccess id).pending = s.pending := rfl

/-! ### `State.clearTrace` -/

@[simp] theorem State.clearTrace_porAsserted (s : State) : (s.clearTrace).porAsserted = s.porAsserted := rfl
@[simp] theorem State.clearTrace_rqrstIn (s : State) : (s.clearTrace).rqrstIn = s.rqrstIn := rfl
@[simp] theorem State.clearTrace_pulse (s : State) : (s.clearTrace).pulse = s.pulse := rfl
@[simp] theorem State.clearTrace_eventLatch (s : State) : (s.clearTrace).eventLatch = s.eventLatch := rfl
@[simp] theorem State.clearTrace_tickCount (s : State) : (s.clearTrace).tickCount = s.tickCount := rfl
@[simp] theorem State.clearTrace_transit (s : State) : (s.clearTrace).transit = s.transit := rfl
@[simp] theorem State.clearTrace_nextPosition (s : State) : (s.clearTrace).nextPosition = s.nextPosition := rfl
@[simp] theorem State.clearTrace_presented (s : State) : (s.clearTrace).presented = s.presented := rfl
@[simp] theorem State.clearTrace_answerQueue (s : State) : (s.clearTrace).answerQueue = s.answerQueue := rfl
@[simp] theorem State.clearTrace_issueList (s : State) : (s.clearTrace).issueList = s.issueList := rfl
@[simp] theorem State.clearTrace_fairness (s : State) : (s.clearTrace).fairness = s.fairness := rfl
@[simp] theorem State.clearTrace_table (s : State) : (s.clearTrace).table = s.table := rfl
@[simp] theorem State.clearTrace_holds (s : State) : (s.clearTrace).holds = s.holds := rfl
@[simp] theorem State.clearTrace_nextHoldId (s : State) : (s.clearTrace).nextHoldId = s.nextHoldId := rfl
@[simp] theorem State.clearTrace_refusedHolds (s : State) : (s.clearTrace).refusedHolds = s.refusedHolds := rfl
@[simp] theorem State.clearTrace_noHold (s : State) : (s.clearTrace).noHold = s.noHold := rfl
@[simp] theorem State.clearTrace_divider (s : State) : (s.clearTrace).divider = s.divider := rfl
@[simp] theorem State.clearTrace_budgetDue (s : State) : (s.clearTrace).budgetDue = s.budgetDue := rfl
@[simp] theorem State.clearTrace_store (s : State) : (s.clearTrace).store = s.store := rfl
@[simp] theorem State.clearTrace_log (s : State) : (s.clearTrace).log = [] := rfl
@[simp] theorem State.clearTrace_nextSeq (s : State) : (s.clearTrace).nextSeq = 0 := rfl
@[simp] theorem State.clearTrace_lost (s : State) : (s.clearTrace).lost = 0 := rfl
@[simp] theorem State.clearTrace_traceMode (s : State) : (s.clearTrace).traceMode = .stop := rfl
@[simp] theorem State.clearTrace_threshold (s : State) : (s.clearTrace).threshold = 0 := rfl
@[simp] theorem State.clearTrace_protocolRecords (s : State) : (s.clearTrace).protocolRecords = false := rfl
@[simp] theorem State.clearTrace_injected (s : State) : (s.clearTrace).injected = s.injected := rfl
@[simp] theorem State.clearTrace_nextAccessId (s : State) : (s.clearTrace).nextAccessId = s.nextAccessId := rfl
@[simp] theorem State.clearTrace_receiver (s : State) : (s.clearTrace).receiver = s.receiver := rfl
@[simp] theorem State.clearTrace_gap (s : State) : (s.clearTrace).gap = s.gap := rfl
@[simp] theorem State.clearTrace_linkAddress (s : State) : (s.clearTrace).linkAddress = s.linkAddress := rfl
@[simp] theorem State.clearTrace_groupAddress (s : State) : (s.clearTrace).groupAddress = s.groupAddress := rfl
@[simp] theorem State.clearTrace_attentionEnable (s : State) : (s.clearTrace).attentionEnable = s.attentionEnable := rfl
@[simp] theorem State.clearTrace_attention (s : State) : (s.clearTrace).attention = s.attention := rfl
@[simp] theorem State.clearTrace_kept (s : State) : (s.clearTrace).kept = s.kept := rfl
@[simp] theorem State.clearTrace_checkErrors (s : State) : (s.clearTrace).checkErrors = s.checkErrors := rfl
@[simp] theorem State.clearTrace_forgetPending (s : State) : (s.clearTrace).forgetPending = s.forgetPending := rfl
@[simp] theorem State.clearTrace_serial (s : State) : (s.clearTrace).serial = s.serial := rfl
@[simp] theorem State.clearTrace_revision (s : State) : (s.clearTrace).revision = s.revision := rfl
@[simp] theorem State.clearTrace_batch (s : State) : (s.clearTrace).batch = s.batch := rfl
@[simp] theorem State.clearTrace_freeCount (s : State) : (s.clearTrace).freeCount = s.freeCount := rfl
@[simp] theorem State.clearTrace_pending (s : State) : (s.clearTrace).pending = s.pending := rfl

/-! ### `State.clearTable` -/

@[simp] theorem State.clearTable_porAsserted (s : State) : (s.clearTable).porAsserted = s.porAsserted := rfl
@[simp] theorem State.clearTable_rqrstIn (s : State) : (s.clearTable).rqrstIn = s.rqrstIn := rfl
@[simp] theorem State.clearTable_pulse (s : State) : (s.clearTable).pulse = s.pulse := rfl
@[simp] theorem State.clearTable_eventLatch (s : State) : (s.clearTable).eventLatch = s.eventLatch := rfl
@[simp] theorem State.clearTable_tickCount (s : State) : (s.clearTable).tickCount = s.tickCount := rfl
@[simp] theorem State.clearTable_transit (s : State) : (s.clearTable).transit = s.transit := rfl
@[simp] theorem State.clearTable_nextPosition (s : State) : (s.clearTable).nextPosition = s.nextPosition := rfl
@[simp] theorem State.clearTable_presented (s : State) : (s.clearTable).presented = s.presented := rfl
@[simp] theorem State.clearTable_answerQueue (s : State) : (s.clearTable).answerQueue = s.answerQueue := rfl
@[simp] theorem State.clearTable_issueList (s : State) : (s.clearTable).issueList = s.issueList := rfl
@[simp] theorem State.clearTable_fairness (s : State) : (s.clearTable).fairness = s.fairness := rfl
@[simp] theorem State.clearTable_table (s : State) :
    (s.clearTable).table = Vector.replicate 16 MatchEntry.powerOn := rfl
@[simp] theorem State.clearTable_holds (s : State) : (s.clearTable).holds = s.holds := rfl
@[simp] theorem State.clearTable_nextHoldId (s : State) : (s.clearTable).nextHoldId = s.nextHoldId := rfl
@[simp] theorem State.clearTable_refusedHolds (s : State) : (s.clearTable).refusedHolds = s.refusedHolds := rfl
@[simp] theorem State.clearTable_noHold (s : State) : (s.clearTable).noHold = s.noHold := rfl
@[simp] theorem State.clearTable_divider (s : State) : (s.clearTable).divider = s.divider := rfl
@[simp] theorem State.clearTable_budgetDue (s : State) : (s.clearTable).budgetDue = s.budgetDue := rfl
@[simp] theorem State.clearTable_store (s : State) : (s.clearTable).store = s.store := rfl
@[simp] theorem State.clearTable_log (s : State) : (s.clearTable).log = s.log := rfl
@[simp] theorem State.clearTable_nextSeq (s : State) : (s.clearTable).nextSeq = s.nextSeq := rfl
@[simp] theorem State.clearTable_lost (s : State) : (s.clearTable).lost = s.lost := rfl
@[simp] theorem State.clearTable_traceMode (s : State) : (s.clearTable).traceMode = s.traceMode := rfl
@[simp] theorem State.clearTable_threshold (s : State) : (s.clearTable).threshold = s.threshold := rfl
@[simp] theorem State.clearTable_protocolRecords (s : State) : (s.clearTable).protocolRecords = s.protocolRecords := rfl
@[simp] theorem State.clearTable_injected (s : State) : (s.clearTable).injected = s.injected := rfl
@[simp] theorem State.clearTable_nextAccessId (s : State) : (s.clearTable).nextAccessId = s.nextAccessId := rfl
@[simp] theorem State.clearTable_receiver (s : State) : (s.clearTable).receiver = s.receiver := rfl
@[simp] theorem State.clearTable_gap (s : State) : (s.clearTable).gap = s.gap := rfl
@[simp] theorem State.clearTable_linkAddress (s : State) : (s.clearTable).linkAddress = s.linkAddress := rfl
@[simp] theorem State.clearTable_groupAddress (s : State) : (s.clearTable).groupAddress = s.groupAddress := rfl
@[simp] theorem State.clearTable_attentionEnable (s : State) : (s.clearTable).attentionEnable = s.attentionEnable := rfl
@[simp] theorem State.clearTable_attention (s : State) : (s.clearTable).attention = s.attention := rfl
@[simp] theorem State.clearTable_kept (s : State) : (s.clearTable).kept = s.kept := rfl
@[simp] theorem State.clearTable_checkErrors (s : State) : (s.clearTable).checkErrors = s.checkErrors := rfl
@[simp] theorem State.clearTable_forgetPending (s : State) : (s.clearTable).forgetPending = s.forgetPending := rfl
@[simp] theorem State.clearTable_serial (s : State) : (s.clearTable).serial = s.serial := rfl
@[simp] theorem State.clearTable_revision (s : State) : (s.clearTable).revision = s.revision := rfl
@[simp] theorem State.clearTable_batch (s : State) : (s.clearTable).batch = s.batch := rfl
@[simp] theorem State.clearTable_freeCount (s : State) : (s.clearTable).freeCount = s.freeCount := rfl
@[simp] theorem State.clearTable_pending (s : State) : (s.clearTable).pending = s.pending := rfl

/-! ### `State.deassertRqrstIn` -/

@[simp] theorem State.deassertRqrstIn_porAsserted (s : State) : (s.deassertRqrstIn).porAsserted = s.porAsserted := rfl
@[simp] theorem State.deassertRqrstIn_rqrstIn (s : State) : (s.deassertRqrstIn).rqrstIn = false := rfl
@[simp] theorem State.deassertRqrstIn_pulse (s : State) : (s.deassertRqrstIn).pulse = s.pulse := rfl
@[simp] theorem State.deassertRqrstIn_eventLatch (s : State) : (s.deassertRqrstIn).eventLatch = s.eventLatch := rfl
@[simp] theorem State.deassertRqrstIn_tickCount (s : State) : (s.deassertRqrstIn).tickCount = s.tickCount := rfl
@[simp] theorem State.deassertRqrstIn_transit (s : State) : (s.deassertRqrstIn).transit = s.transit := rfl
@[simp] theorem State.deassertRqrstIn_nextPosition (s : State) : (s.deassertRqrstIn).nextPosition = s.nextPosition := rfl
@[simp] theorem State.deassertRqrstIn_presented (s : State) : (s.deassertRqrstIn).presented = s.presented := rfl
@[simp] theorem State.deassertRqrstIn_answerQueue (s : State) : (s.deassertRqrstIn).answerQueue = s.answerQueue := rfl
@[simp] theorem State.deassertRqrstIn_issueList (s : State) : (s.deassertRqrstIn).issueList = s.issueList := rfl
@[simp] theorem State.deassertRqrstIn_fairness (s : State) : (s.deassertRqrstIn).fairness = s.fairness := rfl
@[simp] theorem State.deassertRqrstIn_table (s : State) : (s.deassertRqrstIn).table = s.table := rfl
@[simp] theorem State.deassertRqrstIn_holds (s : State) : (s.deassertRqrstIn).holds = s.holds := rfl
@[simp] theorem State.deassertRqrstIn_nextHoldId (s : State) : (s.deassertRqrstIn).nextHoldId = s.nextHoldId := rfl
@[simp] theorem State.deassertRqrstIn_refusedHolds (s : State) : (s.deassertRqrstIn).refusedHolds = s.refusedHolds := rfl
@[simp] theorem State.deassertRqrstIn_noHold (s : State) : (s.deassertRqrstIn).noHold = s.noHold := rfl
@[simp] theorem State.deassertRqrstIn_divider (s : State) : (s.deassertRqrstIn).divider = s.divider := rfl
@[simp] theorem State.deassertRqrstIn_budgetDue (s : State) : (s.deassertRqrstIn).budgetDue = s.budgetDue := rfl
@[simp] theorem State.deassertRqrstIn_store (s : State) : (s.deassertRqrstIn).store = s.store := rfl
@[simp] theorem State.deassertRqrstIn_log (s : State) : (s.deassertRqrstIn).log = s.log := rfl
@[simp] theorem State.deassertRqrstIn_nextSeq (s : State) : (s.deassertRqrstIn).nextSeq = s.nextSeq := rfl
@[simp] theorem State.deassertRqrstIn_lost (s : State) : (s.deassertRqrstIn).lost = s.lost := rfl
@[simp] theorem State.deassertRqrstIn_traceMode (s : State) : (s.deassertRqrstIn).traceMode = s.traceMode := rfl
@[simp] theorem State.deassertRqrstIn_threshold (s : State) : (s.deassertRqrstIn).threshold = s.threshold := rfl
@[simp] theorem State.deassertRqrstIn_protocolRecords (s : State) : (s.deassertRqrstIn).protocolRecords = s.protocolRecords := rfl
@[simp] theorem State.deassertRqrstIn_injected (s : State) : (s.deassertRqrstIn).injected = s.injected := rfl
@[simp] theorem State.deassertRqrstIn_nextAccessId (s : State) : (s.deassertRqrstIn).nextAccessId = s.nextAccessId := rfl
@[simp] theorem State.deassertRqrstIn_receiver (s : State) : (s.deassertRqrstIn).receiver = s.receiver := rfl
@[simp] theorem State.deassertRqrstIn_gap (s : State) : (s.deassertRqrstIn).gap = s.gap := rfl
@[simp] theorem State.deassertRqrstIn_linkAddress (s : State) : (s.deassertRqrstIn).linkAddress = s.linkAddress := rfl
@[simp] theorem State.deassertRqrstIn_groupAddress (s : State) : (s.deassertRqrstIn).groupAddress = s.groupAddress := rfl
@[simp] theorem State.deassertRqrstIn_attentionEnable (s : State) : (s.deassertRqrstIn).attentionEnable = s.attentionEnable := rfl
@[simp] theorem State.deassertRqrstIn_attention (s : State) : (s.deassertRqrstIn).attention = s.attention := rfl
@[simp] theorem State.deassertRqrstIn_kept (s : State) : (s.deassertRqrstIn).kept = s.kept := rfl
@[simp] theorem State.deassertRqrstIn_checkErrors (s : State) : (s.deassertRqrstIn).checkErrors = s.checkErrors := rfl
@[simp] theorem State.deassertRqrstIn_forgetPending (s : State) : (s.deassertRqrstIn).forgetPending = s.forgetPending := rfl
@[simp] theorem State.deassertRqrstIn_serial (s : State) : (s.deassertRqrstIn).serial = s.serial := rfl
@[simp] theorem State.deassertRqrstIn_revision (s : State) : (s.deassertRqrstIn).revision = s.revision := rfl
@[simp] theorem State.deassertRqrstIn_batch (s : State) : (s.deassertRqrstIn).batch = s.batch := rfl
@[simp] theorem State.deassertRqrstIn_freeCount (s : State) : (s.deassertRqrstIn).freeCount = s.freeCount := rfl
@[simp] theorem State.deassertRqrstIn_pending (s : State) : (s.deassertRqrstIn).pending = s.pending := rfl

end Sys2Proof.Machine
end

