-- ==== Sys2Proof/Laws/Frames.lean ====
section
/-! SUPPORT. What the shared operations leave unchanged, said once: records sent to the trace unit and posts (`LogFrame`),
everything that ends or creates holds (`HoldFrame`), and what a tick makes due (`SettleFrame`). -/

namespace Sys2Proof.Machine

/-- `t` differs from `s` by trace records and attention posts alone (R94, R98, R138). -/
structure LogFrame (s t : State) : Prop where
  porAsserted : t.porAsserted = s.porAsserted
  rqrstIn : t.rqrstIn = s.rqrstIn
  pulse : t.pulse = s.pulse
  eventLatch : t.eventLatch = s.eventLatch
  tickCount : t.tickCount = s.tickCount
  transit : t.transit = s.transit
  nextPosition : t.nextPosition = s.nextPosition
  presented : t.presented = s.presented
  answerQueue : t.answerQueue = s.answerQueue
  issueList : t.issueList = s.issueList
  fairness : t.fairness = s.fairness
  table : t.table = s.table
  holds : t.holds = s.holds
  nextHoldId : t.nextHoldId = s.nextHoldId
  refusedHolds : t.refusedHolds = s.refusedHolds
  noHold : t.noHold = s.noHold
  divider : t.divider = s.divider
  budgetDue : t.budgetDue = s.budgetDue
  store : t.store = s.store
  traceMode : t.traceMode = s.traceMode
  threshold : t.threshold = s.threshold
  protocolRecords : t.protocolRecords = s.protocolRecords
  injected : t.injected = s.injected
  nextAccessId : t.nextAccessId = s.nextAccessId
  gap : t.gap = s.gap
  linkAddress : t.linkAddress = s.linkAddress
  groupAddress : t.groupAddress = s.groupAddress
  attentionEnable : t.attentionEnable = s.attentionEnable
  kept : t.kept = s.kept
  checkErrors : t.checkErrors = s.checkErrors
  forgetPending : t.forgetPending = s.forgetPending
  serial : t.serial = s.serial
  revision : t.revision = s.revision
  batch : t.batch = s.batch
  freeCount : t.freeCount = s.freeCount
  pending : t.pending = s.pending

theorem LogFrame.refl (s : State) : LogFrame s s := by
  constructor <;> rfl

theorem LogFrame.trans {s t u : State} (h : LogFrame s t) (k : LogFrame t u) : LogFrame s u where
  porAsserted := k.porAsserted.trans h.porAsserted
  rqrstIn := k.rqrstIn.trans h.rqrstIn
  pulse := k.pulse.trans h.pulse
  eventLatch := k.eventLatch.trans h.eventLatch
  tickCount := k.tickCount.trans h.tickCount
  transit := k.transit.trans h.transit
  nextPosition := k.nextPosition.trans h.nextPosition
  presented := k.presented.trans h.presented
  answerQueue := k.answerQueue.trans h.answerQueue
  issueList := k.issueList.trans h.issueList
  fairness := k.fairness.trans h.fairness
  table := k.table.trans h.table
  holds := k.holds.trans h.holds
  nextHoldId := k.nextHoldId.trans h.nextHoldId
  refusedHolds := k.refusedHolds.trans h.refusedHolds
  noHold := k.noHold.trans h.noHold
  divider := k.divider.trans h.divider
  budgetDue := k.budgetDue.trans h.budgetDue
  store := k.store.trans h.store
  traceMode := k.traceMode.trans h.traceMode
  threshold := k.threshold.trans h.threshold
  protocolRecords := k.protocolRecords.trans h.protocolRecords
  injected := k.injected.trans h.injected
  nextAccessId := k.nextAccessId.trans h.nextAccessId
  gap := k.gap.trans h.gap
  linkAddress := k.linkAddress.trans h.linkAddress
  groupAddress := k.groupAddress.trans h.groupAddress
  attentionEnable := k.attentionEnable.trans h.attentionEnable
  kept := k.kept.trans h.kept
  checkErrors := k.checkErrors.trans h.checkErrors
  forgetPending := k.forgetPending.trans h.forgetPending
  serial := k.serial.trans h.serial
  revision := k.revision.trans h.revision
  batch := k.batch.trans h.batch
  freeCount := k.freeCount.trans h.freeCount
  pending := k.pending.trans h.pending

/-- `t` differs from `s` by what creating and ending holds may change: slots, the answer queue, the hold queue with its next id
and refused count, trace records and attention posts (R54, R57). -/
structure HoldFrame (s t : State) : Prop where
  porAsserted : t.porAsserted = s.porAsserted
  rqrstIn : t.rqrstIn = s.rqrstIn
  pulse : t.pulse = s.pulse
  eventLatch : t.eventLatch = s.eventLatch
  tickCount : t.tickCount = s.tickCount
  nextPosition : t.nextPosition = s.nextPosition
  presented : t.presented = s.presented
  issueList : t.issueList = s.issueList
  fairness : t.fairness = s.fairness
  table : t.table = s.table
  noHold : t.noHold = s.noHold
  divider : t.divider = s.divider
  budgetDue : t.budgetDue = s.budgetDue
  store : t.store = s.store
  traceMode : t.traceMode = s.traceMode
  threshold : t.threshold = s.threshold
  protocolRecords : t.protocolRecords = s.protocolRecords
  injected : t.injected = s.injected
  nextAccessId : t.nextAccessId = s.nextAccessId
  gap : t.gap = s.gap
  linkAddress : t.linkAddress = s.linkAddress
  groupAddress : t.groupAddress = s.groupAddress
  attentionEnable : t.attentionEnable = s.attentionEnable
  kept : t.kept = s.kept
  checkErrors : t.checkErrors = s.checkErrors
  forgetPending : t.forgetPending = s.forgetPending
  serial : t.serial = s.serial
  revision : t.revision = s.revision
  batch : t.batch = s.batch
  freeCount : t.freeCount = s.freeCount
  pending : t.pending = s.pending

theorem HoldFrame.refl (s : State) : HoldFrame s s := by
  constructor <;> rfl

theorem HoldFrame.trans {s t u : State} (h : HoldFrame s t) (k : HoldFrame t u) : HoldFrame s u where
  porAsserted := k.porAsserted.trans h.porAsserted
  rqrstIn := k.rqrstIn.trans h.rqrstIn
  pulse := k.pulse.trans h.pulse
  eventLatch := k.eventLatch.trans h.eventLatch
  tickCount := k.tickCount.trans h.tickCount
  nextPosition := k.nextPosition.trans h.nextPosition
  presented := k.presented.trans h.presented
  issueList := k.issueList.trans h.issueList
  fairness := k.fairness.trans h.fairness
  table := k.table.trans h.table
  noHold := k.noHold.trans h.noHold
  divider := k.divider.trans h.divider
  budgetDue := k.budgetDue.trans h.budgetDue
  store := k.store.trans h.store
  traceMode := k.traceMode.trans h.traceMode
  threshold := k.threshold.trans h.threshold
  protocolRecords := k.protocolRecords.trans h.protocolRecords
  injected := k.injected.trans h.injected
  nextAccessId := k.nextAccessId.trans h.nextAccessId
  gap := k.gap.trans h.gap
  linkAddress := k.linkAddress.trans h.linkAddress
  groupAddress := k.groupAddress.trans h.groupAddress
  attentionEnable := k.attentionEnable.trans h.attentionEnable
  kept := k.kept.trans h.kept
  checkErrors := k.checkErrors.trans h.checkErrors
  forgetPending := k.forgetPending.trans h.forgetPending
  serial := k.serial.trans h.serial
  revision := k.revision.trans h.revision
  batch := k.batch.trans h.batch
  freeCount := k.freeCount.trans h.freeCount
  pending := k.pending.trans h.pending

/-- `t` differs from `s` by what a tick can make due (R67, R68, R116, R130, R178). -/
structure SettleFrame (s t : State) : Prop where
  porAsserted : t.porAsserted = s.porAsserted
  rqrstIn : t.rqrstIn = s.rqrstIn
  eventLatch : t.eventLatch = s.eventLatch
  tickCount : t.tickCount = s.tickCount
  nextPosition : t.nextPosition = s.nextPosition
  presented : t.presented = s.presented
  issueList : t.issueList = s.issueList
  fairness : t.fairness = s.fairness
  table : t.table = s.table
  noHold : t.noHold = s.noHold
  divider : t.divider = s.divider
  store : t.store = s.store
  traceMode : t.traceMode = s.traceMode
  threshold : t.threshold = s.threshold
  protocolRecords : t.protocolRecords = s.protocolRecords
  injected : t.injected = s.injected
  nextAccessId : t.nextAccessId = s.nextAccessId
  gap : t.gap = s.gap
  attentionEnable : t.attentionEnable = s.attentionEnable
  kept : t.kept = s.kept
  checkErrors : t.checkErrors = s.checkErrors
  serial : t.serial = s.serial
  revision : t.revision = s.revision
  batch : t.batch = s.batch
  freeCount : t.freeCount = s.freeCount
  pending : t.pending = s.pending

theorem SettleFrame.refl (s : State) : SettleFrame s s := by
  constructor <;> rfl

theorem SettleFrame.trans {s t u : State} (h : SettleFrame s t) (k : SettleFrame t u) : SettleFrame s u where
  porAsserted := k.porAsserted.trans h.porAsserted
  rqrstIn := k.rqrstIn.trans h.rqrstIn
  eventLatch := k.eventLatch.trans h.eventLatch
  tickCount := k.tickCount.trans h.tickCount
  nextPosition := k.nextPosition.trans h.nextPosition
  presented := k.presented.trans h.presented
  issueList := k.issueList.trans h.issueList
  fairness := k.fairness.trans h.fairness
  table := k.table.trans h.table
  noHold := k.noHold.trans h.noHold
  divider := k.divider.trans h.divider
  store := k.store.trans h.store
  traceMode := k.traceMode.trans h.traceMode
  threshold := k.threshold.trans h.threshold
  protocolRecords := k.protocolRecords.trans h.protocolRecords
  injected := k.injected.trans h.injected
  nextAccessId := k.nextAccessId.trans h.nextAccessId
  gap := k.gap.trans h.gap
  attentionEnable := k.attentionEnable.trans h.attentionEnable
  kept := k.kept.trans h.kept
  checkErrors := k.checkErrors.trans h.checkErrors
  serial := k.serial.trans h.serial
  revision := k.revision.trans h.revision
  batch := k.batch.trans h.batch
  freeCount := k.freeCount.trans h.freeCount
  pending := k.pending.trans h.pending

theorem LogFrame.toHoldFrame {s t : State} (h : LogFrame s t) : HoldFrame s t where
  porAsserted := h.porAsserted
  rqrstIn := h.rqrstIn
  pulse := h.pulse
  eventLatch := h.eventLatch
  tickCount := h.tickCount
  nextPosition := h.nextPosition
  presented := h.presented
  issueList := h.issueList
  fairness := h.fairness
  table := h.table
  noHold := h.noHold
  divider := h.divider
  budgetDue := h.budgetDue
  store := h.store
  traceMode := h.traceMode
  threshold := h.threshold
  protocolRecords := h.protocolRecords
  injected := h.injected
  nextAccessId := h.nextAccessId
  gap := h.gap
  linkAddress := h.linkAddress
  groupAddress := h.groupAddress
  attentionEnable := h.attentionEnable
  kept := h.kept
  checkErrors := h.checkErrors
  forgetPending := h.forgetPending
  serial := h.serial
  revision := h.revision
  batch := h.batch
  freeCount := h.freeCount
  pending := h.pending

theorem HoldFrame.toSettleFrame {s t : State} (h : HoldFrame s t) : SettleFrame s t where
  porAsserted := h.porAsserted
  rqrstIn := h.rqrstIn
  eventLatch := h.eventLatch
  tickCount := h.tickCount
  nextPosition := h.nextPosition
  presented := h.presented
  issueList := h.issueList
  fairness := h.fairness
  table := h.table
  noHold := h.noHold
  divider := h.divider
  store := h.store
  traceMode := h.traceMode
  threshold := h.threshold
  protocolRecords := h.protocolRecords
  injected := h.injected
  nextAccessId := h.nextAccessId
  gap := h.gap
  attentionEnable := h.attentionEnable
  kept := h.kept
  checkErrors := h.checkErrors
  serial := h.serial
  revision := h.revision
  batch := h.batch
  freeCount := h.freeCount
  pending := h.pending


/-! ### Records and posts -/

theorem append_logFrame (s : State) (n : TraceNote) : LogFrame s (s.append n) := by constructor <;> rfl

theorem postIf_logFrame (c : Bool) (f : Flag) (d : Byte) (s : State) : LogFrame s (s.postIf c f d) := by
  constructor <;> rfl

theorem appendAll_logFrame (ns : List TraceNote) (s : State) : LogFrame s (s.appendAll ns) := by
  induction ns generalizing s with
  | nil => exact LogFrame.refl s
  | cons n ns ih => exact (append_logFrame s n).trans (ih (s.append n))

/-- Records are appended one after another (R94). -/
theorem appendAll_append (ns ms : List TraceNote) (s : State) :
    s.appendAll (ns ++ ms) = (s.appendAll ns).appendAll ms := List.foldl_append

@[simp] theorem appendAll_nil (s : State) : s.appendAll [] = s := rfl

@[simp] theorem appendAll_cons (n : TraceNote) (ns : List TraceNote) (s : State) :
    s.appendAll (n :: ns) = (s.append n).appendAll ns := rfl

/-! ### Creating and ending holds -/

theorem putSlot_holdFrame (t : Tag) (x : Transaction) (s : State) : HoldFrame s (s.putSlot t x) := by
  constructor <;> rfl

theorem answerSlot_holdFrame (t : Tag) (x : Transaction) (r : BusResponse) (s : State) :
    HoldFrame s (s.answerSlot t x r) := by
  constructor <;> rfl

theorem removeHold_holdFrame (id : Byte) (s : State) : HoldFrame s (s.removeHold id) := by constructor <;> rfl

theorem askHold_holdFrame (h : Hold) (s : State) : HoldFrame s (s.askHold h) := by
  unfold State.askHold
  split <;> constructor <;> rfl

theorem carryOut_holdFrame (mayHold : Bool) (x : Transaction) (s : State) : HoldFrame s (s.carryOut mayHold x) := by
  unfold State.carryOut
  split
  · split
    · exact (askHold_holdFrame _ s).trans (putSlot_holdFrame _ _ _)
    · exact putSlot_holdFrame _ _ _
  · exact putSlot_holdFrame _ _ _

theorem unparkOne_holdFrame (mayHold : Bool) (s : State) (t : Tag) : HoldFrame s (s.unparkOne mayHold t) := by
  unfold State.unparkOne
  split
  · exact HoldFrame.refl s
  · split
    · exact (carryOut_holdFrame _ _ s).trans (appendAll_logFrame _ _).toHoldFrame
    · exact HoldFrame.refl s

theorem unparkPass_holdFrame (mayHold : Bool) (s : State) : HoldFrame s (s.unparkPass mayHold) := by
  unfold State.unparkPass
  generalize s.parkedTags = ts
  induction ts generalizing s with
  | nil => exact HoldFrame.refl s
  | cons t ts ih => exact (unparkOne_holdFrame mayHold s t).trans (ih _)

theorem deliver_holdFrame (proceeds : Bool) (h : Hold) (s : State) : HoldFrame s (s.deliver proceeds h) := by
  unfold State.deliver
  split
  · exact HoldFrame.refl s
  · split
    · split
      · exact putSlot_holdFrame _ _ _
      · exact answerSlot_holdFrame _ _ _ _
    · exact answerSlot_holdFrame _ _ _ _

theorem endHold_holdFrame (mayHold proceeds expiry : Bool) (o : TraceOutcome) (s : State) (h : Hold) :
    HoldFrame s (s.endHold mayHold proceeds expiry o h) := by
  have h1 : HoldFrame s ((((s.removeHold h.id).deliver proceeds h).append (h.endNote (some h.id) o)).postIf expiry
      .expiry h.id) :=
    (removeHold_holdFrame h.id s).trans ((deliver_holdFrame proceeds h _).trans
      ((append_logFrame _ _).toHoldFrame.trans (postIf_logFrame _ _ _ _).toHoldFrame))
  unfold State.endHold
  split
  · exact h1.trans (unparkPass_holdFrame _ _)
  · exact h1

theorem expire_holdFrame (s : State) (h : Hold) : HoldFrame s (s.expire h) := by
  unfold State.expire
  split <;> exact endHold_holdFrame _ _ _ _ _ _

theorem expireNext_holdFrame (s : State) : HoldFrame s s.expireNext := by
  unfold State.expireNext
  split
  · exact HoldFrame.refl s
  · exact expire_holdFrame _ _

theorem expireUpTo_holdFrame (n : Nat) (s : State) : HoldFrame s (s.expireUpTo n) := by
  induction n generalizing s with
  | zero => exact HoldFrame.refl s
  | succ n ih =>
    unfold State.expireUpTo
    split
    · exact HoldFrame.refl s
    · exact (expireNext_holdFrame s).trans (ih _)

theorem expireAll_holdFrame (s : State) : HoldFrame s s.expireAll := expireUpTo_holdFrame _ s

theorem clearHolds_foldl_holdFrame (hs : List Hold) (s : State) :
    HoldFrame s (hs.foldl (State.endHold false true false .cleared) s) := by
  induction hs generalizing s with
  | nil => exact HoldFrame.refl s
  | cons h hs ih => exact (endHold_holdFrame _ _ _ _ s h).trans (ih _)

/-! ### What a tick makes due -/

theorem endPulse_settleFrame (s : State) : SettleFrame s s.endPulse := by constructor <;> rfl

theorem stepBudgets_settleFrame (s : State) : SettleFrame s s.stepBudgets := by constructor <;> rfl

theorem toReceiver_settleFrame (r : Receiver) (s : State) : SettleFrame s (s.toReceiver r) := by constructor <;> rfl

theorem endResponse_settleFrame (s : State) : SettleFrame s s.endResponse := by constructor <;> rfl

theorem abortFrame_settleFrame (s : State) : SettleFrame s s.abortFrame := by
  unfold State.abortFrame
  split
  · exact toReceiver_settleFrame _ _
  · exact SettleFrame.refl s

theorem abandonResponse_settleFrame (s : State) : SettleFrame s s.abandonResponse := by
  unfold State.abandonResponse
  split
  · exact endResponse_settleFrame s
  · exact SettleFrame.refl s

theorem abandonRound_settleFrame (s : State) : SettleFrame s s.abandonRound := by
  unfold State.abandonRound
  split
  · exact toReceiver_settleFrame _ _
  · exact SettleFrame.refl s

/-- Completing what is due changes none of these fields. -/
theorem settle_settleFrame (s : State) : SettleFrame s s.settle :=
  (endPulse_settleFrame s).trans <| (stepBudgets_settleFrame _).trans <|
    (expireAll_holdFrame _).toSettleFrame.trans <| (abortFrame_settleFrame _).trans <|
      (abandonResponse_settleFrame _).trans (abandonRound_settleFrame _)

end Sys2Proof.Machine
end

