-- ==== Sys2Proof/Laws/Events.lean ====
section
/-! SUPPORT. When a command or event acts on the state as it stands: a ready state is unchanged by what is due, and a command
that is the batch's next is skipped, answered NO-ROOM, or run. -/

namespace Sys2Proof.Machine

/-! ### Ready states -/

theorem ready_iff (s : State) : s.ready ↔ s.porAsserted = false ∧ s.pulse ≠ some 0 ∧ s.budgetDue = false ∧
    (∀ h ∈ s.holds, h.remaining ≠ 0) ∧ s.gapDue = false := by
  simp [State.ready, State.settled, State.pulseDue, and_assoc]

theorem endPulse_of_ready {s : State} (h : s.ready) : s.endPulse = s := by
  have hp := ((ready_iff s).1 h).2.1
  simp [State.endPulse, hp]

theorem stepBudgets_of_ready {s : State} (h : s.ready) : s.stepBudgets = s := by
  have hb := ((ready_iff s).1 h).2.2.1
  cases s
  simp_all [State.stepBudgets]

theorem dueHold_of_ready {s : State} (h : s.ready) : s.dueHold = none := by
  have hh := ((ready_iff s).1 h).2.2.2.1
  simpa [State.dueHold] using hh

theorem expireAll_of_ready {s : State} (h : s.ready) : s.expireAll = s := by
  unfold State.expireAll
  cases s.holds.length + 8 with
  | zero => rfl
  | succ n => simp [State.expireUpTo, dueHold_of_ready h]

theorem abortFrame_of_ready {s : State} (h : s.ready) : s.abortFrame = s := by
  have hg := ((ready_iff s).1 h).2.2.2.2
  unfold State.abortFrame
  unfold State.gapDue at hg
  split <;> simp_all

theorem abandonResponse_of_ready {s : State} (h : s.ready) : s.abandonResponse = s := by
  have hg := ((ready_iff s).1 h).2.2.2.2
  unfold State.abandonResponse
  unfold State.gapDue at hg
  split <;> simp_all

theorem abandonRound_of_ready {s : State} (h : s.ready) : s.abandonRound = s := by
  have hg := ((ready_iff s).1 h).2.2.2.2
  unfold State.abandonRound
  unfold State.gapDue at hg
  split <;> simp_all

/-- Nothing is due in a ready state. -/
theorem settle_of_ready {s : State} (h : s.ready) : s.settle = s := by
  unfold State.settle
  rw [endPulse_of_ready h, stepBudgets_of_ready h, expireAll_of_ready h, abortFrame_of_ready h,
    abandonResponse_of_ready h, abandonRound_of_ready h]

/-- An event in a ready state acts on the state as it stands. -/
theorem event_of_ready {s : State} (h : s.ready) (f : State → State) : s.event f = .next (f s) := by
  unfold State.event
  rw [h.1, settle_of_ready h]
  rfl

theorem dueEvent_of_live {s : State} (h : s.porAsserted = false) (f : State → State) : s.dueEvent f = .next (f s) := by
  unfold State.dueEvent
  rw [h]
  rfl

/-- Every event answers a next state. -/
theorem event_next (s : State) (f : State → State) : ∃ t, s.event f = .next t := by
  unfold State.event
  split <;> exact ⟨_, rfl⟩

/-- What an event can answer. -/
theorem event_cases {s t : State} {f : State → State} (h : s.event f = .next t) :
    (s.porAsserted = true ∧ t = s) ∨ (s.porAsserted = false ∧ t = f s.settle) := by
  unfold State.event at h
  split at h
  · next hp => exact .inl ⟨hp, (Host.Outcome.next.inj h).symm⟩
  · next hp => exact .inr ⟨by simpa using hp, (Host.Outcome.next.inj h).symm⟩

theorem dueEvent_cases {s t : State} {f : State → State} (h : s.dueEvent f = .next t) :
    (s.porAsserted = true ∧ t = s) ∨ (s.porAsserted = false ∧ t = f s) := by
  unfold State.dueEvent at h
  split at h
  · next hp => exact .inl ⟨hp, (Host.Outcome.next.inj h).symm⟩
  · next hp => exact .inr ⟨by simpa using hp, (Host.Outcome.next.inj h).symm⟩

/-! ### Commands -/

/-- Recording an answer in a batch that is in progress. -/
theorem answer_of_batch {s : State} {b : Batch} (h : s.batch = some b) (c : Command) (st : CmdStatus) (res : List Byte) :
    s.answer c st res = s.answered b c st res := by
  simp [State.answer, State.answered, h]

/-- A command that runs acts by its body. -/
theorem takeCommand_of_runs {s : State} {b : Batch} {c : Command} (h : s.runs b c) (run : State → State) :
    s.takeCommand c run = run s := by
  obtain ⟨-, hb, ht, hs, hl⟩ := h
  simp [State.takeCommand, hb, ht, hs, hl]

/-- A command that runs: the state its body leaves, with the answer recorded. -/
theorem command_of_runs {s : State} {b : Batch} {c : Command} (h : s.runs b c) (body : State → Reply)
    (hb : (body s).state.batch = some b) :
    s.command c body = .next ((body s).state.answered b c (body s).status (body s).results) := by
  unfold State.command
  rw [event_of_ready h.1, takeCommand_of_runs h]
  unfold State.runBody
  rw [answer_of_batch hb]

/-- A command that is refused changes the batch alone. -/
theorem command_refused {s : State} {b : Batch} {c : Command} (h : s.runs b c) {body : State → Reply} {st : CmdStatus}
    (hr : body s = refuse st s) : s.command c body = .next (s.answered b c st []) := by
  have hb : (body s).state.batch = some b := by rw [hr]; exact h.2.1
  rw [command_of_runs h body hb, hr]
  rfl

/-- A command answered OK by a new state. -/
theorem command_done {s t : State} {b : Batch} {c : Command} (h : s.runs b c) {body : State → Reply}
    (hr : body s = done t) (hb : t.batch = s.batch) : s.command c body = .next (t.answered b c .ok []) := by
  have hb' : (body s).state.batch = some b := by rw [hr]; exact hb.trans h.2.1
  rw [command_of_runs h body hb', hr]
  rfl

/-- A command that returns results and changes nothing. -/
theorem command_reads {s : State} {b : Batch} {c : Command} (h : s.runs b c) {body : State → Reply} {res : List Byte}
    (hr : body s = ⟨s, .ok, res⟩) : s.command c body = .next (s.answered b c .ok res) := by
  have hb : (body s).state.batch = some b := by rw [hr]; exact h.2.1
  rw [command_of_runs h body hb, hr]

/-- What taking a command can do: nothing when it is not its turn, an answer alone, or its body. -/
theorem takeCommand_cases (c : Command) (run : State → State) (s : State) :
    s.takeCommand c run = s ∨ (∃ b st, s.batch = some b ∧ b.turn c = true ∧ s.takeCommand c run = s.answered b c st []) ∨
      ∃ b, s.batch = some b ∧ b.turn c = true ∧ b.skips c = false ∧ b.lacksRoom c = false ∧
        s.takeCommand c run = run s := by
  unfold State.takeCommand
  split
  · exact .inl rfl
  · next b hb =>
    by_cases ht : b.turn c = true
    · simp only [ht, if_true]
      by_cases hs : b.skips c = true
      · exact .inr (.inl ⟨b, .notRun, hb, ht, by simp [hs, answer_of_batch hb]⟩)
      · by_cases hl : b.lacksRoom c = true
        · exact .inr (.inl ⟨b, .noRoom, hb, ht, by simp [hs, hl, answer_of_batch hb]⟩)
        · exact .inr (.inr ⟨b, hb, ht, by simpa using hs, by simpa using hl, by simp [hs, hl]⟩)
    · exact .inl (by simp [ht])

end Sys2Proof.Machine
end

