-- ==== Sys2Proof/Laws/Link.lean ====
section
/-! SUPPORT. The link: what the start of a round does to a unit that waits for it, and what the unit does with LDA. -/

namespace Sys2Proof.Machine

/-! ### The start of a round -/

theorem readyRound_of_awaitsRound {s : State} {k : RoundKind} (h : s.awaitsRound k) : s.receiver.readyRound = some k := by
  rcases h with h | ⟨f, h, hf⟩
  · rw [h]; rfl
  · rw [h]; exact hf

theorem holdsReadyPhase_of_no_batch {s : State} (h : s.batch = none) : s.holdsReadyPhase = false := by
  simp [State.holdsReadyPhase, h]

/-- A unit without a batch leaves its ready phase: to ROUND with its part, or to IDLE. -/
theorem startRound_of_awaitsRound {s : State} {k : RoundKind} (h : s.awaitsRound k) (hb : s.batch = none) :
    s.startRound = match s.roundPart k with
      | some p => { s with receiver := .round p, gap := 0 }
      | none => s.toReceiver .idle := by
  cases hp : s.roundPart k <;> simp [State.startRound, readyRound_of_awaitsRound h, holdsReadyPhase_of_no_batch hb, hp]

/-- A unit with a batch keeps the ready phase going. -/
theorem startRound_of_batch {s : State} (h : s.batch.isSome = true) : s.startRound = s := by
  unfold State.startRound
  split
  · rfl
  · next k hk =>
    have : s.holdsReadyPhase = true := by simp [State.holdsReadyPhase, Receiver.inReadyPhase, hk, h]
    rw [if_pos this]

/-- A frame opens a round exactly where the table calls for one. -/
theorem roundOf_eq_some_iff (s : State) (f : Frame) (k : RoundKind) : roundOf f = some k ↔ s.frameAction f = .round k := by
  have good : ∀ {k}, roundOf f = some k → f.good = true := by
    intro k h
    unfold roundOf at h
    split at h
    · next hg => exact hg.1
    · cases h
  unfold State.frameAction
  constructor
  · intro h
    have hg := good h
    have hk : frameKind f.control = some .enum ∨ frameKind f.control = some .poll := by
      unfold roundOf at h
      split at h
      · split at h
        · next hk _ => exact .inl hk
        · next hk _ => exact .inr hk
        · cases h
      · cases h
    rw [if_neg (by simp [hg])]
    rcases hk with hk | hk <;> simp [hk, h]
  · intro h
    split at h
    · split at h <;> cases h
    · split at h
      · split at h
        · cases h
        · split at h <;> cases h
      · split at h <;> cases h
      all_goals first
        | (split at h
           · cases h; assumption
           · cases h)
        | cases h

/-! ### Bits on the line -/

@[simp] theorem byteBits_length (b : Byte) : (byteBits b).length = 8 := rfl

@[simp] theorem bytesBits_nil : bytesBits [] = [] := rfl

@[simp] theorem bytesBits_cons (b : Byte) (bs : List Byte) : bytesBits (b :: bs) = byteBits b ++ bytesBits bs := rfl

@[simp] theorem bytesBits_length (bs : List Byte) : (bytesBits bs).length = 8 * bs.length := by
  induction bs with
  | nil => rfl
  | cons b bs ih => simp [ih]; omega

end Sys2Proof.Machine
end

