-- ==== Sys2Proof/Laws/Store.lean ====
section
/-! SUPPORT. The overlay store as canonical memory: what a byte reads as after a write, and that every memory operation keeps
the canonical form and the store's range; and the transit table's reads after its updates. -/

namespace Sys2Proof.Machine

/-! ### Canonical form -/

theorem Memory.wf_cons (a : Nat) (v : Byte) (m : List Host.Cell) :
    Memory.wf ((a, v) :: m) = true ↔ v ≠ 0 ∧ (∀ c ∈ m, a < c.1) ∧ Memory.wf m = true := by
  induction m generalizing a v with
  | nil => simp [Memory.wf]
  | cons c m ih =>
    obtain ⟨b, w⟩ := c
    rw [Memory.wf, Bool.and_eq_true, Bool.and_eq_true, decide_eq_true_iff, decide_eq_true_iff, ih b w]
    constructor
    · rintro ⟨⟨hv, hab⟩, hw, hm, hwf⟩
      refine ⟨hv, fun c hc => ?_, hw, hm, hwf⟩
      rcases List.mem_cons.1 hc with rfl | hc
      · exact hab
      · exact Nat.lt_trans hab (hm c hc)
    · rintro ⟨hv, hlt, hw⟩
      exact ⟨⟨hv, hlt (b, w) (List.mem_cons_self ..)⟩, hw⟩

theorem Memory.mem_write {m : List Host.Cell} {a : Nat} {v : Byte} {c : Host.Cell} (h : c ∈ Memory.write m a v) :
    c = (a, v) ∨ c ∈ m := by
  induction m with
  | nil =>
    unfold Memory.write at h
    split at h <;> simp_all
  | cons d m ih =>
    obtain ⟨b, w⟩ := d
    unfold Memory.write at h
    split at h
    · split at h <;> simp_all
    · split at h
      · split at h
        · exact .inr (List.mem_cons_of_mem _ h)
        · rcases List.mem_cons.1 h with h | h
          · exact .inl h
          · exact .inr (List.mem_cons_of_mem _ h)
      · rcases List.mem_cons.1 h with h | h
        · exact .inr (h ▸ List.mem_cons_self ..)
        · rcases ih h with h | h
          · exact .inl h
          · exact .inr (List.mem_cons_of_mem _ h)

/-- Writing a byte keeps the canonical form. -/
theorem Memory.write_wf {m : List Host.Cell} (h : Memory.wf m = true) (a : Nat) (v : Byte) :
    Memory.wf (Memory.write m a v) = true := by
  induction m with
  | nil =>
    unfold Memory.write
    split
    · rfl
    · next hv => exact (Memory.wf_cons a v []).2 ⟨hv, by simp, rfl⟩
  | cons d m ih =>
    obtain ⟨b, w⟩ := d
    obtain ⟨hw, hlt, hm⟩ := (Memory.wf_cons b w m).1 h
    unfold Memory.write
    split
    · next hab =>
      split
      · exact h
      · next hv =>
        refine (Memory.wf_cons a v _).2 ⟨hv, fun c hc => ?_, h⟩
        rcases List.mem_cons.1 hc with rfl | hc
        · exact hab
        · exact Nat.lt_trans hab (hlt c hc)
    · next hab =>
      split
      · next he =>
        subst he
        split
        · exact hm
        · next hv => exact (Memory.wf_cons a v m).2 ⟨hv, hlt, hm⟩
      · next hne =>
        refine (Memory.wf_cons b w _).2 ⟨hw, fun c hc => ?_, ih hm⟩
        rcases Memory.mem_write hc with rfl | hc
        · exact Nat.lt_of_le_of_ne (Nat.le_of_not_lt hab) (Ne.symm hne)
        · exact hlt c hc

/-- Writing a run of bytes keeps the canonical form. -/
theorem Memory.writeRange_wf {m : List Host.Cell} (h : Memory.wf m = true) (a : Nat) (vs : List Byte) :
    Memory.wf (Memory.writeRange m a vs) = true := by
  induction vs generalizing m a with
  | nil => exact h
  | cons v vs ih => exact ih (Memory.write_wf h a v) (a + 1)

/-- A write inside the store lists bytes of the store alone. -/
theorem Memory.write_inStore {m : List Host.Cell} (h : Memory.inStore m = true) {a : Nat} (ha : a < 1024) (v : Byte) :
    Memory.inStore (Memory.write m a v) = true := by
  simp only [Memory.inStore, List.all_eq_true, decide_eq_true_eq] at h ⊢
  intro c hc
  rcases Memory.mem_write hc with rfl | hc
  · exact ha
  · exact h c hc

theorem Memory.writeRange_inStore {m : List Host.Cell} (h : Memory.inStore m = true) {a : Nat} {vs : List Byte}
    (ha : a + vs.length ≤ 1024) : Memory.inStore (Memory.writeRange m a vs) = true := by
  induction vs generalizing m a with
  | nil => exact h
  | cons v vs ih =>
    simp only [List.length_cons] at ha
    exact ih (Memory.write_inStore h (by omega) v) (by omega)

/-- The store right after reset lists nothing, and is canonical. -/
theorem Memory.reset_wf : Memory.wf State.reset.store = true ∧ Memory.inStore State.reset.store = true := ⟨rfl, rfl⟩

/-! ### Reads after writes -/

theorem Memory.read_eq_zero {m : List Host.Cell} {a : Nat} (h : ∀ c ∈ m, a < c.1) : Memory.read m a = 0 := by
  induction m with
  | nil => rfl
  | cons d m ih =>
    obtain ⟨b, w⟩ := d
    have hb : a < b := h (b, w) (List.mem_cons_self ..)
    unfold Memory.read
    rw [if_neg (Nat.ne_of_lt hb)]
    exact ih fun c hc => h c (List.mem_cons_of_mem _ hc)

/-- In a canonical memory a written byte reads back. -/
theorem Memory.read_write_self {m : List Host.Cell} (h : Memory.wf m = true) (a : Nat) (v : Byte) :
    Memory.read (Memory.write m a v) a = v := by
  induction m with
  | nil =>
    unfold Memory.write
    split
    · next hv => rw [hv]; rfl
    · simp [Memory.read]
  | cons d m ih =>
    obtain ⟨b, w⟩ := d
    obtain ⟨-, hlt, hm⟩ := (Memory.wf_cons b w m).1 h
    unfold Memory.write
    split
    · next hab =>
      split
      · next hv =>
        rw [hv]
        refine Memory.read_eq_zero fun c hc => ?_
        rcases List.mem_cons.1 hc with rfl | hc
        · exact hab
        · exact Nat.lt_trans hab (hlt c hc)
      · simp [Memory.read]
    · split
      · next he =>
        subst he
        split
        · next hv => rw [hv]; exact Memory.read_eq_zero hlt
        · simp [Memory.read]
      · next hne => rw [Memory.read, if_neg hne]; exact ih hm

/-- A write changes no other byte. -/
theorem Memory.read_write_of_ne (m : List Host.Cell) {a x : Nat} (hne : x ≠ a) (v : Byte) :
    Memory.read (Memory.write m a v) x = Memory.read m x := by
  induction m with
  | nil =>
    unfold Memory.write
    split
    · rfl
    · simp [Memory.read, hne]
  | cons d m ih =>
    obtain ⟨b, w⟩ := d
    unfold Memory.write
    split
    · split
      · rfl
      · rw [Memory.read, if_neg hne]
    · split
      · next he =>
        subst he
        split
        · rw [Memory.read, if_neg hne]
        · rw [Memory.read, if_neg hne, Memory.read, if_neg hne]
      · rw [Memory.read, Memory.read, ih]

/-- A write of a run changes no byte outside it. -/
theorem Memory.read_writeRange_of_outside (m : List Host.Cell) {a x : Nat} {vs : List Byte}
    (h : x < a ∨ a + vs.length ≤ x) : Memory.read (Memory.writeRange m a vs) x = Memory.read m x := by
  induction vs generalizing m a with
  | nil => rfl
  | cons v vs ih =>
    simp only [List.length_cons] at h
    rw [Memory.writeRange, ih _ (by omega), Memory.read_write_of_ne _ (by omega)]

/-- In a canonical memory a written run reads back, byte for byte. -/
theorem Memory.read_writeRange {m : List Host.Cell} (h : Memory.wf m = true) (a : Nat) {vs : List Byte} {k : Nat}
    (hk : k < vs.length) : some (Memory.read (Memory.writeRange m a vs) (a + k)) = vs[k]? := by
  induction vs generalizing m a k with
  | nil => simp at hk
  | cons v vs ih =>
    cases k with
    | zero =>
      rw [Memory.writeRange, Memory.read_writeRange_of_outside _ (by omega), Nat.add_zero, Memory.read_write_self h]
      rfl
    | succ k =>
      rw [Memory.writeRange, show a + (k + 1) = a + 1 + k by omega,
        ih (Memory.write_wf h a v) (a + 1) (by simpa using hk)]
      rfl

@[simp] theorem Memory.readRange_length (m : List Host.Cell) (a n : Nat) : (Memory.readRange m a n).length = n := by
  induction n generalizing a with
  | zero => rfl
  | succ n ih => simp [Memory.readRange, ih]

theorem Memory.readRange_getElem? (m : List Host.Cell) {a n k : Nat} (hk : k < n) :
    (Memory.readRange m a n)[k]? = some (Memory.read m (a + k)) := by
  induction n generalizing a k with
  | zero => omega
  | succ n ih =>
    cases k with
    | zero => rfl
    | succ k =>
      rw [Memory.readRange, List.getElem?_cons_succ, ih (by omega), show a + 1 + k = a + (k + 1) by omega]

/-! ### The transit table -/

theorem slot_set_self {s t : State} {u : Tag} {o : Option Transaction} (h : t.transit = s.transit.set u o) :
    t.slot u = o := by
  simp [State.slot, h]

theorem slot_set_of_ne {s t : State} {u v : Tag} {o : Option Transaction} (h : t.transit = s.transit.set u o)
    (hne : v ≠ u) : t.slot v = s.slot v := by
  have : u.val ≠ v.val := fun e => hne (Fin.ext e.symm)
  simp [State.slot, h, this]

@[simp] theorem slot_putSlot_self (s : State) (u : Tag) (x : Transaction) : (s.putSlot u x).slot u = some x :=
  slot_set_self rfl

theorem slot_putSlot_of_ne (s : State) {u v : Tag} (x : Transaction) (h : v ≠ u) : (s.putSlot u x).slot v = s.slot v :=
  slot_set_of_ne rfl h

@[simp] theorem slot_answerSlot_self (s : State) (u : Tag) (x : Transaction) (r : BusResponse) :
    (s.answerSlot u x r).slot u = some { x with stage := .answering r } := slot_set_self rfl

theorem slot_answerSlot_of_ne (s : State) {u v : Tag} (x : Transaction) (r : BusResponse) (h : v ≠ u) :
    (s.answerSlot u x r).slot v = s.slot v := slot_set_of_ne rfl h

@[simp] theorem slot_freeSlot_self (s : State) (u : Tag) : (s.freeSlot u).slot u = none := slot_set_self rfl

theorem slot_freeSlot_of_ne (s : State) {u v : Tag} (h : v ≠ u) : (s.freeSlot u).slot v = s.slot v :=
  slot_set_of_ne rfl h

/-- What blocks a request depends on the transit table alone. -/
theorem blocked_congr {s t : State} (h : t.transit = s.transit) (p : Nat) (r : Request) : t.blocked p r = s.blocked p r := by
  simp [State.blocked, State.slot, h]

theorem blocked_iff (s : State) (p : Nat) (r : Request) : s.blocked p r = true ↔
    ∃ u x, s.slot u = some x ∧ x.blocks = true ∧ x.position < p ∧ requestsConflict x.request r = true := by
  constructor
  · intro h
    obtain ⟨u, -, hu⟩ := List.any_eq_true.1 h
    cases hs : s.slot u with
    | none => simp [hs] at hu
    | some x => exact ⟨u, x, hs, by simpa [hs, and_assoc] using hu⟩
  · rintro ⟨u, x, hs, hb, hp, hc⟩
    refine List.any_eq_true.2 ⟨u, List.mem_finRange u, ?_⟩
    simp [hs, hb, hp, hc]

end Sys2Proof.Machine
end

