-- ==== Sys2Proof/Laws/Match.lean ====
section
/-! SUPPORT. What an evaluation of the match table does to each entry (R32, R34, R37, R38): what fires, what hits count, and that
the effects of firing touch armed states alone. -/

namespace Sys2Proof.Machine

theorem mem_allEntries (i : EntryIndex) : i ∈ allEntries := List.mem_finRange i

theorem mem_allTags (t : Tag) : t ∈ allTags := List.mem_finRange t

/-- An entry fires exactly where it hits and the hit brings its counter to the threshold. -/
theorem mem_firedEntries (tb : Vector MatchEntry 16) (late : Bool) (r : Request) (data : List Byte) (i : EntryIndex) :
    i ∈ firedEntries tb late r data ↔ tb[i].hitsOn late r data = true ∧ tb[i].full = true := by
  simp [firedEntries, mem_allEntries]

/-- The firing entries come in ascending order. -/
theorem firedEntries_ascending (tb : Vector MatchEntry 16) (late : Bool) (r : Request) (data : List Byte) :
    (firedEntries tb late r data).Pairwise (· < ·) := (List.pairwise_lt_finRange 16).filter _

theorem countHits_get (tb : Vector MatchEntry 16) (late : Bool) (r : Request) (data : List Byte) (i : EntryIndex) :
    (countHits tb late r data)[i] =
      if tb[i].hitsOn late r data then { tb[i] with hits := if tb[i].full then 0 else tb[i].hits + 1 } else tb[i] := by
  simp [countHits]

theorem setArmed_get (i j : EntryIndex) (a : Bool) (tb : Vector MatchEntry 16) :
    (setArmed i a tb)[j] = if j = i then { tb[i] with armed := a } else tb[j] := by
  by_cases h : j = i
  · subst h; simp [setArmed]
  · have : i.val ≠ j.val := fun e => h (Fin.ext e.symm)
    simp [setArmed, h, this]

/-- What an operation on the table keeps when it touches armed states alone. -/
structure ArmFrame (tb tc : Vector MatchEntry 16) : Prop where
  config : ∀ i : EntryIndex, tc[i].config = tb[i].config
  enabled : ∀ i : EntryIndex, tc[i].enabled = tb[i].enabled
  hits : ∀ i : EntryIndex, tc[i].hits = tb[i].hits

theorem ArmFrame.refl (tb : Vector MatchEntry 16) : ArmFrame tb tb := ⟨fun _ => rfl, fun _ => rfl, fun _ => rfl⟩

theorem ArmFrame.trans {tb tc td : Vector MatchEntry 16} (h : ArmFrame tb tc) (k : ArmFrame tc td) : ArmFrame tb td :=
  ⟨fun i => (k.config i).trans (h.config i), fun i => (k.enabled i).trans (h.enabled i),
    fun i => (k.hits i).trans (h.hits i)⟩

theorem setArmed_armFrame (i : EntryIndex) (a : Bool) (tb : Vector MatchEntry 16) : ArmFrame tb (setArmed i a tb) := by
  constructor <;>
  · intro j
    rw [setArmed_get]
    split
    · next h => rw [h]
    · rfl

theorem armEffects_armFrame (tb : Vector MatchEntry 16) (i : EntryIndex) : ArmFrame tb (armEffects tb i) := by
  have one : ArmFrame tb (oneshotEffect tb i) := by
    unfold oneshotEffect
    split
    · exact setArmed_armFrame i false tb
    · exact ArmFrame.refl tb
  refine one.trans ?_
  change ArmFrame (oneshotEffect tb i) (linkEffect (oneshotEffect tb i) i)
  unfold linkEffect
  split
  · exact ArmFrame.refl _
  · exact setArmed_armFrame _ _ _

theorem armEffects_foldl_armFrame (is : List EntryIndex) (tb : Vector MatchEntry 16) :
    ArmFrame tb (is.foldl armEffects tb) := by
  induction is generalizing tb with
  | nil => exact ArmFrame.refl tb
  | cons i is ih => exact (armEffects_armFrame tb i).trans (ih (armEffects tb i))

/-- After an evaluation an entry keeps its configuration and stays enabled or not. -/
theorem evaluated_config (late : Bool) (r : Request) (data : List Byte) (s : State) (i : EntryIndex) :
    (s.evaluated late r data).table[i].config = s.table[i].config := by
  refine ((armEffects_foldl_armFrame _ _).config i).trans ?_
  rw [countHits_get]
  split <;> rfl

theorem evaluated_enabled (late : Bool) (r : Request) (data : List Byte) (s : State) (i : EntryIndex) :
    (s.evaluated late r data).table[i].enabled = s.table[i].enabled := by
  refine ((armEffects_foldl_armFrame _ _).enabled i).trans ?_
  rw [countHits_get]
  split <;> rfl

/-- The hit counter of an entry after an evaluation. -/
theorem evaluated_hits (late : Bool) (r : Request) (data : List Byte) (s : State) (i : EntryIndex) :
    (s.evaluated late r data).table[i].hits =
      if s.table[i].hitsOn late r data then (if s.table[i].full then 0 else s.table[i].hits + 1) else s.table[i].hits := by
  refine ((armEffects_foldl_armFrame _ _).hits i).trans ?_
  rw [countHits_get]
  split <;> rfl

/-- The entry that an index operand names (R47). -/
theorem entryIndex_of_lt {b : Byte} (h : b.toNat < 16) : entryIndex b = some ⟨b.toNat, h⟩ := dif_pos h

theorem entryIndex_of_ge {b : Byte} (h : 16 ≤ b.toNat) : entryIndex b = none := dif_neg (Nat.not_lt.2 h)

end Sys2Proof.Machine
end

