-- ==== Sys2Proof/Laws/Path.lean ====
section
/-! SUPPORT. The path's events: an accepted arrival acts on the state as it stands, an evaluation that no entry hits changes
nothing, the records of an event change no attention flag but TRACE, and a return is taken at the length of its access. -/

namespace Sys2Proof.Machine

/-- A request that is accepted arrives (R5, R6). -/
theorem execRequestArrival_of_admits {s : State} {r : Request} (h : s.admits r) :
    execRequestArrival r s = s.arrive r := by
  obtain ⟨hr, hp, hs, hb⟩ := h
  have ha : s.accepts r = true := by simp [State.accepts, hs, hb]
  simp [execRequestArrival, hr.1, settle_of_ready hr, State.present, hp, ha]

theorem firedEntries_of_no_hit {tb : Vector MatchEntry 16} {late : Bool} {r : Request} {data : List Byte}
    (h : ∀ i : EntryIndex, tb[i].hitsOn late r data = false) : firedEntries tb late r data = [] := by
  refine List.eq_nil_iff_forall_not_mem.2 fun i hi => ?_
  have := ((mem_firedEntries tb late r data i).1 hi).1
  rw [h i] at this
  exact Bool.false_ne_true this

/-- An evaluation that no entry hits changes nothing. -/
theorem evaluated_of_no_hit {s : State} {late : Bool} {r : Request} {data : List Byte}
    (h : ∀ i : EntryIndex, s.table[i].hitsOn late r data = false) : s.evaluated late r data = s := by
  have hc : countHits s.table late r data = s.table := by
    refine Vector.ext fun i hi => ?_
    have hg := countHits_get s.table late r data ⟨i, hi⟩
    rw [h ⟨i, hi⟩] at hg
    simpa using hg
  simp [State.evaluated, firedEntries_of_no_hit h, hc]

/-! ### A return at the length of its access -/

@[simp] theorem fitReturn_tag (g : Nat) (z : Size) (r : MemReturn) : (fitReturn g z r).tag = r.tag := rfl

@[simp] theorem fitReturn_status (g : Nat) (z : Size) (r : MemReturn) : (fitReturn g z r).status = r.status := rfl

@[simp] theorem fitReturn_length (g : Nat) (z : Size) (r : MemReturn) : (fitReturn g z r).data.length = z.bytes := by
  simp [fitReturn]

/-- The bytes that the return has are taken as they are. -/
theorem fitReturn_getElem? (g : Nat) {z : Size} {r : MemReturn} {k : Nat} (hz : k < z.bytes) (hr : k < r.data.length) :
    (fitReturn g z r).data[k]? = r.data[k]? := by
  simp [fitReturn, List.getElem?_range hz, hr]

/-- A return of the access's own length is taken as it is. -/
theorem fitReturn_of_length (g : Nat) {z : Size} {r : MemReturn} (h : r.data.length = z.bytes) : fitReturn g z r = r := by
  have hd : (fitReturn g z r).data = r.data := by
    refine List.ext_getElem? fun k => ?_
    by_cases hk : k < z.bytes
    · exact fitReturn_getElem? g hk (by omega)
    · rw [List.getElem?_eq_none (by simp; omega), List.getElem?_eq_none (by omega)]
  exact congrArg (fun d => { r with data := d }) hd

/-- The records of an event post no flag but TRACE. -/
theorem appendAll_attention (ns : List TraceNote) (s : State) :
    (s.appendAll ns).attention.join = s.attention.join ∧ (s.appendAll ns).attention.hold = s.attention.hold ∧
      (s.appendAll ns).attention.expiry = s.attention.expiry := by
  induction ns generalizing s with
  | nil => exact ⟨rfl, rfl, rfl⟩
  | cons n ns ih =>
    obtain ⟨h1, h2, h3⟩ := ih (s.append n)
    have key : (s.append n).attention.join = s.attention.join ∧ (s.append n).attention.hold = s.attention.hold ∧
        (s.append n).attention.expiry = s.attention.expiry := by
      simp only [State.append]
      split <;> exact ⟨rfl, rfl, rfl⟩
    exact ⟨h1.trans key.1, h2.trans key.2.1, h3.trans key.2.2⟩

end Sys2Proof.Machine
end

