-- ==== Sys2Proof/Tests/Slice0.lean ====
section
/-! SUPPORT. Tests on small states: an ill-formed term for each check of WellFormed, values the manual writes out, one row at
a time, and for each statement of Certificates/Slice0/Obligations.lean that has hypotheses a state and operands that meet
them. -/

set_option Elab.async false

namespace Sys2Proof.Tests

open Sys2Proof Sys2Proof.Machine

/-! ### WellFormed: one ill-formed term for each check -/

/-- A READ of one word by a user program. -/
def readReq : Request := ⟨5, .read, 0x20000400, .four, .user, []⟩

/-- A WRITE of one word by a user program. -/
def writeReq : Request := ⟨2, .write, 0x20000404, .four, .user, [1, 2, 3, 4]⟩

/-- STATUS to unit 3, the frame the manual writes out (chapter 11, example). -/
def statusFrame : Frame := ⟨3, 1, [1], 0xD5⟩

/-- A frame with the check byte that belongs to it. -/
def goodFrame (d c : Byte) (p : List Byte) : Frame := ⟨d, c, p, crc8 (d :: c :: byteOf p.length :: p)⟩

theorem test_wf_request_data : (Instr.requestArrival { writeReq with data := [1, 2, 3] }).wellFormed = false ∧
    (Instr.requestArrival { readReq with data := [1] }).wellFormed = false ∧
    (Instr.requestArrival readReq).wellFormed = true ∧ (Instr.requestArrival writeReq).wellFormed = true := by decide +kernel

theorem test_wf_return_data : (Instr.memoryReturn ⟨0, .fault, [1]⟩).wellFormed = false ∧
    (Instr.memoryReturn ⟨0, .done, [1, 2, 3]⟩).wellFormed = false ∧
    (Instr.memoryReturnDuringPor ⟨0, .fault, [1]⟩).wellFormed = false ∧
    (Instr.memoryReturn ⟨0, .done, [1, 2, 3, 4]⟩).wellFormed = true := by decide +kernel

theorem test_wf_overlength : (Instr.overlengthFrame 3 1 240).wellFormed = false ∧
    (Instr.overlengthFrame 3 1 241).wellFormed = true := by decide +kernel

theorem test_wf_bad_check_frame : (Instr.badCheckFrame statusFrame).wellFormed = false ∧
    (Instr.badCheckFrame { statusFrame with check := 0xD4 }).wellFormed = true := by decide +kernel

theorem test_wf_frame_size : (Frame.sized ⟨3, 1, List.replicate 241 0, 0⟩ = false) ∧
    (Instr.badCheckFrame ⟨3, 1, List.replicate 241 0, 0⟩).wellFormed = false := by decide +kernel

theorem test_wf_command_frame : (Instr.commandFrame statusFrame).wellFormed = true ∧
    (Instr.commandFrame { statusFrame with check := 0xD4 }).wellFormed = false ∧
    (Instr.commandFrame (goodFrame 16 1 [1])).wellFormed = false ∧
    (Instr.commandFrame (goodFrame 3 2 [1])).wellFormed = false := by decide +kernel

theorem test_wf_group_command_frame : (Instr.groupCommandFrame (goodFrame 16 1 [1])).wellFormed = true ∧
    (Instr.groupCommandFrame (goodFrame 0 1 [1])).wellFormed = true ∧
    (Instr.groupCommandFrame (goodFrame 15 1 [1])).wellFormed = false ∧
    (Instr.groupCommandFrame (goodFrame 24 1 [1])).wellFormed = false := by decide +kernel

theorem test_wf_readback_frame : (Instr.readbackFrame (goodFrame 15 2 [])).wellFormed = true ∧
    (Instr.readbackFrame (goodFrame 0 2 [])).wellFormed = false ∧
    (Instr.readbackFrame (goodFrame 3 1 [])).wellFormed = false := by decide +kernel

theorem test_wf_enum_frame : (Instr.enumFrame (goodFrame 0 3 [7])).wellFormed = true ∧
    (Instr.enumFrame (goodFrame 0 3 [])).wellFormed = false ∧
    (Instr.enumFrame (goodFrame 1 3 [7])).wellFormed = false ∧
    (Instr.enumFrame (goodFrame 0 4 [7])).wellFormed = false := by decide +kernel

theorem test_wf_poll_frame : (Instr.pollFrame (goodFrame 0 4 [])).wellFormed = true ∧
    (Instr.pollFrame (goodFrame 0 4 [0])).wellFormed = false ∧
    (Instr.pollFrame (goodFrame 9 4 [])).wellFormed = false := by decide +kernel

theorem test_wf_frame_not_acted_on : (Instr.frameNotActedOn (goodFrame 9 0x11 [])).wellFormed = true ∧
    (Instr.frameNotActedOn { goodFrame 9 0x11 [] with check := 0 }).wellFormed = false := by decide +kernel

theorem test_wf_arbitration_slot : (Instr.arbitrationLoss 0).wellFormed = false ∧
    (Instr.arbitrationLoss 65).wellFormed = false ∧ (Instr.arbitrationLoss 64).wellFormed = true := by decide +kernel

theorem test_wf_command_strings : (Instr.writeEntry 0 (List.replicate 26 0)).wellFormed = false ∧
    (Instr.writeOverlay 0 1 [1, 2, 3]).wellFormed = false ∧ (Instr.amend 0 4 [1]).wellFormed = false ∧
    (Instr.poke 0 2 [1]).wellFormed = false ∧ (Instr.poke 0 3 []).wellFormed = true := by decide +kernel

theorem test_wf_commands_that_cannot_run : (Instr.badOpcode 0x01).wellFormed = false ∧
    (Instr.badOpcode 0xFF).wellFormed = true ∧ (Instr.cutCommand 0x01).wellFormed = false ∧
    (Instr.cutCommand 0xFF).wellFormed = false ∧ (Instr.cutCommand 0x10).wellFormed = true := by decide +kernel

/-! ### Values the manual writes out -/

/-- R115's two test values, and the register left at 0 by the string and its check byte. -/
theorem test_check_byte_values : crc8 [0x00] = 0x42 ∧ crc8 [0x00, 0x00] = 0xB8 ∧ crc8 [0x00, 0x42] = 0 := by decide +kernel

/-- Chapter 11's frame: the register after each field. -/
theorem test_status_frame_check : crc8 [3] = 0x33 ∧ crc8 [3, 1] = 0x83 ∧ crc8 [3, 1, 1] = 0xBD ∧
    crc8 [3, 1, 1, 1] = 0xD5 ∧ statusFrame.good = true ∧ dividePayload statusFrame.payload = [.status] := by decide +kernel

/-- Chapter 11's image of entry 9. -/
def exampleImage : List Byte :=
  [0x38, 0x02, 0x01, 0x00] ++ [0x20, 0x00, 0x02, 0x00] ++ [0x20, 0x00, 0x02, 0xFF] ++ List.replicate 8 0 ++
    [0x00, 0x02] ++ [0x00, 0x00] ++ [0x01, 0xF4] ++ [0x00]

theorem test_example_image : imageDefined exampleImage = true ∧ (imageFields exampleImage).legal = true ∧
    imageEntry exampleImage =
      ⟨⟨0x20000200, 0x200002FF, ⟨false, true, false⟩, .any, none, 2, .hold, .before, 500, .proceed, 0, true, true, true,
        none⟩, false, false, 0⟩ ∧
    (imageEntry exampleImage).image = exampleImage ∧
    { imageEntry exampleImage with enabled := true }.image = 0xB8 :: exampleImage.drop 1 := by decide +kernel

/-- R29's example of a data condition. -/
theorem test_data_condition_example :
    DataCond.holds ⟨0x0000FF00, 0x00003A00⟩ ⟨0, .write, 0x20000001, .one, .user, [0x3A]⟩ [0x3A] = true ∧
    DataCond.holds ⟨0x0000FF00, 0x00003A00⟩ ⟨0, .write, 0x20000000, .one, .user, [0x3A]⟩ [0x3A] = false ∧
    DataCond.holds ⟨0x0000FF00, 0x00003A00⟩ ⟨0, .write, 0x20000000, .four, .user, [9, 0x3A, 8, 7]⟩ [9, 0x3A, 8, 7] = true ∧
    DataCond.holds ⟨0, 0⟩ ⟨0, .fetch, 0x20000000, .line, .user, []⟩ (List.replicate 16 0) = false := by decide +kernel

/-- R75's example: window base 0x00004010, overlay offset 3, a LINE at 0x00004020. -/
theorem test_overlay_mapping_example : overlayByte 0x00004010 3 0x00004020 = 28 := by decide +kernel

/-- The status record after power-on, with the identity left out of it (R188). -/
theorem test_power_on_status : State.reset.statusRecord =
    [0, 0, 0x88, 0, 0, 0, 0, 0] ++ [0, 0, 0, 0, 0, 0, 0, 0, 0] ++ [0, 0, 0, 0, 0, 0] := by decide +kernel

theorem test_reset_memory : Memory.wf State.reset.store = true := rfl

theorem test_reset_is_ready : State.reset.ready := by decide +kernel

/-- A part numbered serial 0x01020304, revision 0xA5: what it sends in an ENUM round begins with the family code (R132). -/
theorem test_enum_reply_begins : ({ State.reset with serial := 0x01020304, revision := 0xA5 }.enumReply.take 16) =
    [false, false, true, true, false, false, true, false, false, false, false, true, false, true, false, false] := by
  decide +kernel

/-! ### Small states -/

/-- The next state, or the state itself where the command stops. -/
def after (i : Instr) (s : State) : State :=
  match exec i s with
  | .next t => t
  | .fault _ | .refused _ => s

/-- A batch of one command, sent to the unit alone. -/
def soleBatch (c : Command) : Batch := ⟨[c], 0, false, true, [], false, none⟩

/-- A state with that batch in progress at unit 3. -/
def commanded (c : Command) (s : State) : State :=
  { s with receiver := .running, gap := 0, linkAddress := some 3, batch := some (soleBatch c) }

/-- The answer that the last command of the batch was given. -/
def reply (s : State) : Option (CmdStatus × List Byte) :=
  s.batch.bind fun b => b.entries.getLast?.map fun e => (e.status, e.results)

/-- In a ready state every command runs when it is the only one of its batch, whatever its operands: the hypothesis `runs` of
every command's statement is met at every value of the operands. -/
theorem commanded_runs {s : State} (h : s.ready) (c : Command) : (commanded c s).runs (soleBatch c) c := by
  have hs := (ready_iff s).1 h
  have room : largestEntry c ≤ 240 := by
    cases c <;> simp only [largestEntry] <;> first | decide | (split <;> omega)
  refine ⟨(ready_iff _).2 ⟨hs.1, hs.2.1, hs.2.2.1, hs.2.2.2.1, by simp [State.gapDue, State.gapPassed, commanded]⟩, rfl, by simp [Batch.turn, soleBatch],
    by simp [Batch.skips, soleBatch], ?_⟩
  simp only [Batch.lacksRoom, Batch.room, Batch.used, soleBatch]
  simpa using room

/-- A window of 256 bytes from 0x20000400 with an action for some kinds, traced and signalled. -/
def config (a : Action) (p : Point) (ks : KindSet) : EntryConfig :=
  { base := 0x20000400, limit := 0x200004FF, kinds := ks, filter := .any, cond := none, threshold := 1, action := a,
    point := p, budget := if a = .hold then 10 else 0, policy := .proceed, offset := 0, log := true, signal := true,
    oneshot := false, link := none }

/-- The part after reset with entry 3 enabled and armed. -/
def tabled (c : EntryConfig) : State := { State.reset with table := State.reset.table.set 3 ⟨c, true, true, 0⟩ }

/-- Entry 3 holds writes at point BEFORE. -/
def holding : State := tabled (config .hold .before ⟨false, true, false⟩)

/-- A write held before memory, hold id 0. -/
def held : State := after (.requestArrival writeReq) holding

/-- A read of its granule parked behind it. -/
def parkedBehind : State := after (.requestArrival readReq) held

/-- A read outside the window. -/
def farRead (t : Tag) : Request := ⟨t, .read, 0x30000000, .four, .priv, []⟩

/-- Another request for the port. -/
def farReadReq : Request := farRead 4

/-- An access of a slot on its way. -/
def outstanding (t : Tag) : IssueEntry := ⟨.slot t, ⟨6, .read, 0x30000000, .four, .priv, []⟩⟩

/-- One slot, with what it is in. -/
def slotted (t : Tag) (st : Stage) (d : Disposition) : State :=
  { State.reset with transit := State.reset.transit.set t (some ⟨0, farRead t, some d, st⟩), nextPosition := 1 }

/-- Slot 1 is ISSUED with its access outstanding. -/
def issued (d : Disposition) : State := { slotted 1 .issued d with issueList := [outstanding 1] }

/-- A held response in slot 1, hold id 7. -/
def heldAfter (p : Policy) (n : Nat) : State :=
  { slotted 1 (.heldResponse ⟨.done, [1, 2, 3, 4]⟩) (.hold 3 .after 10 p) with
    holds := [⟨7, 1, 3, .after, .read, 0x30000000, .four, .priv, [1, 2, 3, 4], some .done, n, p, 0, false⟩] }

/-- The same at point BEFORE. -/
def heldBefore (p : Policy) (n : Nat) : State :=
  { slotted 1 .held (.hold 3 .before 10 p) with
    holds := [⟨7, 1, 3, .before, .read, 0x30000000, .four, .priv, [], none, n, p, 0, false⟩] }

/-! ### The path, one row at a time -/

theorem test_arrival_waits : (after (.requestArrival readReq) State.reset).slot 5 =
    some ⟨0, readReq, some .pass, .waiting⟩ := by decide +kernel

theorem test_arrival_is_held : held.slot 2 = some ⟨0, writeReq, some (.hold 3 .before 10 .proceed), .held⟩ ∧
    held.holds.length = 1 ∧ held.attention.hold = some 0 ∧ held.eventLatch = true ∧
    (held.log.map fun r => r.note.outcome) = [.held] := by decide +kernel

theorem test_arrival_parks : parkedBehind.slot 5 = some ⟨1, readReq, some .pass, .parked⟩ := by decide +kernel

theorem test_arrival_is_overlaid :
    (after (.requestArrival readReq) { tabled (config .overlay .before ⟨true, false, false⟩) with
      store := [(0, 0x11), (3, 0x44)] }).slot 5 =
    some ⟨0, readReq, some (.overlay 3 0x20000400 0x200004FF 0), .answering ⟨.done, [0x11, 0, 0, 0x44]⟩⟩ := by
  decide +kernel

theorem test_response_taken : (after .responseTaken
    { slotted 1 (.answering ⟨.fault, []⟩) .pass with answerQueue := [1] }).slot 1 = none := by decide +kernel

theorem test_grant : ((after .memoryPortGrant (slotted 1 .waiting .pass)).slot 1).map (·.stage) = some .issued ∧
    ((after .memoryPortGrant (slotted 1 .waiting .pass)).issueList.map (·.target)) = [.slot 1] := by decide +kernel

theorem test_return_answers : ((after (.memoryReturn ⟨6, .done, [1, 2, 3, 4]⟩) (issued .pass)).slot 1).map (·.stage) =
    some (.answering ⟨.done, [1, 2, 3, 4]⟩) := by decide +kernel

/-- A PEEK of two bytes is charged with a return of four, the first two of which it takes (R16, R109, R168). -/
theorem test_peek_takes_its_size : (after (.memoryReturn ⟨6, .done, [1, 2, 3, 4]⟩) { State.reset with
    issueList := [⟨.injected 7, (outstanding 1).sent⟩]
    injected := [⟨7, .peek, 0x100, .two, [], .issued⟩] }).injected = [⟨7, .peek, 0x100, .two, [1, 2], .done⟩] := by
  decide +kernel

theorem test_return_is_held : ((after (.memoryReturn ⟨6, .done, [1, 2, 3, 4]⟩) (issued (.hold 3 .after 9 .fault))).holds.map
    fun h => (h.id, h.point, h.data, h.remaining)) = [(0, .after, [1, 2, 3, 4], 9)] := by decide +kernel

/-! ### Time, the lines and the link, one row at a time -/

theorem test_tick : (after (.tick false) State.reset).tickCount = 1 ∧ (after (.tick false) State.reset).gap = 1 ∧
    (after (.tick true) { State.reset with divider := 9, pulse := some 1 }).budgetDue = true ∧
    (after (.tick true) { State.reset with divider := 9, pulse := some 1 }).pulse = some 0 := by decide +kernel

theorem test_budget_step : ((after .budgetStep { heldAfter .fault 2 with budgetDue := true }).holds.map (·.remaining)) =
    [1] := by decide +kernel

theorem test_hold_expiry : (after .holdExpiry (heldAfter .fault 0)).holds = [] ∧
    ((after .holdExpiry (heldAfter .fault 0)).slot 1).map (·.stage) = some (.answering ⟨.fault, []⟩) ∧
    (after .holdExpiry (heldAfter .fault 0)).attention.expiry = some 7 := by decide +kernel

theorem test_pulse_end : (after .pulseEnd { State.reset with pulse := some 0 }).pulse = none := by decide +kernel

/-- A request held back at the port stays there through a requester reset and through a power-on reset (R5). -/
theorem test_presented_request_stays : (after .rqrstInAsserted { held with presented := some readReq }).presented = some readReq ∧
    (after .porNAsserted { held with presented := some readReq }).presented = some readReq ∧
    (after (.requestArrival readReq) (after .porNAsserted held)).presented = some readReq ∧
    (after (.requestArrival farReadReq) { held with presented := some readReq }).slot 4 = none := by decide +kernel

theorem test_rqrst_lines : (after .rqrstInAsserted (issued .pass)).rqrstIn = true ∧
    ((after .rqrstInAsserted (issued .pass)).slot 1).map (·.stage) = some .orphan ∧
    (after .rqrstInDeasserted (after .rqrstInAsserted State.reset)).rqrstIn = false := by decide +kernel

theorem test_por_lines : (after .porNAsserted held).porAsserted = true ∧ (after .porNAsserted held).holds = [] ∧
    (after (.porNReleased true) (after .porNAsserted held)).rqrstIn = true ∧
    (after (.memoryReturnDuringPor ⟨0, .done, []⟩) (after .porNAsserted held)).porAsserted = true := by decide +kernel

theorem test_frame_start : (after .frameStart State.reset).receiver = .receiving := by decide +kernel

/-- A pause longer than the gap limit in a receiver state. -/
def paused (r : Receiver) : State := { State.reset with receiver := r, gap := 2001 }

theorem test_gaps : (after .gapAbort (paused .receiving)).receiver = .idle ∧
    (after .responseGapAbandon (paused (.responding (buildResponse .empty [])))).receiver = .idle ∧
    (after .roundGapAbandon (paused (.ready .poll))).receiver = .idle := by decide +kernel

/-- Unit 3, receiving. -/
def receiving : State := { State.reset with receiver := .receiving, linkAddress := some 3, groupAddress := some 16 }

theorem test_overlength : (after (.overlengthFrame 3 1 241) receiving).receiver = .idle := by decide +kernel

theorem test_bad_check_frame : (after (.badCheckFrame { statusFrame with check := 0 }) receiving).receiver =
    .responding (buildResponse .rejectCheck []) ∧
    (after (.badCheckFrame { statusFrame with check := 0 }) receiving).checkErrors = 1 := by decide +kernel

theorem test_command_frames : (after (.commandFrame statusFrame) receiving).batch = some (soleBatch .status) ∧
    (after (.groupCommandFrame (goodFrame 16 0x81 [0x50])) receiving).batch =
      some ⟨[.eventClear], 0, true, false, [], false, none⟩ := by decide +kernel

theorem test_readback_frame : (after (.readbackFrame (goodFrame 3 2 [])) receiving).receiver =
    .responding (buildResponse .empty []) := by decide +kernel

theorem test_round_frames : (after (.enumFrame (goodFrame 0 3 [9])) receiving).receiver = .ready (.enum 9) ∧
    (after (.pollFrame (goodFrame 0 4 [])) receiving).receiver = .ready .poll ∧
    (after (.frameNotActedOn (goodFrame 4 1 [1])) receiving).receiver = .idle := by decide +kernel

theorem test_deferred_frame : (after .deferredFrameAction { receiving with receiver := .waiting statusFrame }).batch =
    some (soleBatch .status) := by decide +kernel

theorem test_batch_end_and_response : (after .batchEnd (after .eventClear (commanded .eventClear held))).receiver =
    .responding (buildResponse .ok [0x50, 0x00]) ∧
    (after .responseSent (after .batchEnd (after .eventClear (commanded .eventClear held)))).receiver = .idle := by
  decide +kernel

theorem test_rounds : (after .roundStart { State.reset with receiver := .ready .poll }).receiver =
      .round (.poll .join 0 false) ∧
    (after .enumComplete { State.reset with receiver := .round (.enum 9) }).linkAddress = some 9 ∧
    (after .pollComplete { State.reset with receiver := .round (.poll .join 0 false) }).attention.join = false ∧
    (after (.arbitrationLoss 12) { State.reset with receiver := .round (.poll .join 0 false) }).receiver = .idle := by
  decide +kernel

/-- A round starts for a unit that still waits in RUNNING with the round's frame, its batch over (R128). -/
theorem test_round_starts_after_the_batch :
    (after .roundStart { State.reset with receiver := .waiting (goodFrame 0 3 [9]) }).receiver = .round (.enum 9) ∧
    (after .roundStart { State.reset with receiver := .waiting (goodFrame 0 3 [0]) }).receiver = .idle := by decide +kernel

/-- EMPTY on the line: the start slot, 0x03, 0x00, then the check byte; and nothing after it (R112, R121). -/
theorem test_response_on_the_line :
    (let s := { State.reset with receiver := .responding (buildResponse .empty []) }
     (List.range 18).map s.ldaOut = [true, false] ++ byteBits 3 ++ byteBits 0 ∧ s.ldaOut 26 = true ∧
      (crc8 [3, 0]).getLsbD 0 = s.ldaOut 25) := by decide +kernel

/-! ### The commands, one row at a time -/

theorem test_status_and_identity : (reply (after .status (commanded .status held))).map (fun a => (a.1, a.2.length)) =
      some (.ok, 23) ∧
    (reply (after .getIdentity (commanded .getIdentity { State.reset with serial := 1, revision := 2 }))) =
      some (.ok, [0x32, 0x14, 0, 0, 0, 1, 2]) := by decide +kernel

theorem test_write_and_read_entry :
    (after (.writeEntry 9 exampleImage) (commanded (.writeEntry 9 exampleImage) State.reset)).table[(9 : Fin 16)] =
      imageEntry exampleImage ∧
    reply (after (.readEntry 9) (commanded (.readEntry 9)
      (after (.writeEntry 9 exampleImage) (commanded (.writeEntry 9 exampleImage) State.reset)))) =
      some (.ok, exampleImage) := by decide +kernel

theorem test_enable_and_disable : reply (after (.enableEntry 0) (commanded (.enableEntry 0) State.reset)) =
      some (.badEntry, []) ∧
    (after (.disableEntry 3) (commanded (.disableEntry 3) holding)).table[(3 : Fin 16)].enabled = false ∧
    reply (after (.disableEntry 16) (commanded (.disableEntry 16) holding)) = some (.badOperand, []) := by decide +kernel

theorem test_arm_disarm_clear : (after (.armEntry 0) (commanded (.armEntry 0) holding)).table[(0 : Fin 16)].armed = true ∧
    (after (.disarmEntry 3) (commanded (.disarmEntry 3) holding)).table[(3 : Fin 16)].armed = false ∧
    (after (.clearCount 15) (commanded (.clearCount 15) { State.reset with
      table := State.reset.table.set 15 { MatchEntry.powerOn with hits := 7 } })).table[(15 : Fin 16)].hits = 0 := by
  decide +kernel

theorem test_overlay_commands : (after (.writeOverlay 255 1 [1, 0, 0, 4])
      (commanded (.writeOverlay 255 1 [1, 0, 0, 4]) State.reset)).store = [(1020, 1), (1023, 4)] ∧
    reply (after (.readOverlay 255 1) (commanded (.readOverlay 255 1) { State.reset with store := [(1020, 1)] })) =
      some (.ok, [1, 0, 0, 0]) ∧
    reply (after (.readOverlay 255 2) (commanded (.readOverlay 255 2) State.reset)) = some (.badOperand, []) := by
  decide +kernel

theorem test_trace_commands : (reply (after (.readTrace 8) (commanded (.readTrace 8) held))).map (fun a => a.2.take 10) =
      some [1, 1, 0, 0, 0, 0, 0, 0, 0x01, 0x0F] ∧
    (after (.ackTrace 1) (commanded (.ackTrace 1) held)).log = [] ∧
    (after (.traceControl 1 256 7) (commanded (.traceControl 1 256 7) held)).traceMode = .wrap ∧
    (after (.traceControl 1 256 7) (commanded (.traceControl 1 256 7) held)).log = [] := by decide +kernel

theorem test_list_and_inspect : reply (after .listHolds (commanded .listHolds held)) = some (.ok, [1, 0, 2]) ∧
    reply (after (.inspect 0) (commanded (.inspect 0) held)) = some (.ok,
      [0, 2, 3, 0x19] ++ [0x20, 0x00, 0x04, 0x04] ++ [0, 10] ++ [0, 0, 4] ++ [1, 2, 3, 4] ++ List.replicate 12 0) := by
  decide +kernel

theorem test_release_unparks : ((after (.release 0) (commanded (.release 0) parkedBehind)).slot 2).map (·.stage) =
      some .waiting ∧
    ((after (.release 0) (commanded (.release 0) parkedBehind)).slot 5).map (·.stage) = some .waiting ∧
    (after (.release 0) (commanded (.release 0) parkedBehind)).holds = [] := by decide +kernel

theorem test_fail : ((after (.fail 7) (commanded (.fail 7) (heldAfter .proceed 5))).slot 1).map (·.stage) =
    some (.answering ⟨.fault, []⟩) := by decide +kernel

theorem test_amend : ((after (.amend 0 4 [9, 9, 9, 9]) (commanded (.amend 0 4 [9, 9, 9, 9]) held)).slot 2).map
      (·.request.data) = some [9, 9, 9, 9] ∧
    reply (after (.amend 7 4 [9, 9, 9, 9]) (commanded (.amend 7 4 [9, 9, 9, 9]) (heldBefore .proceed 5))) =
      some (.badKind, []) := by decide +kernel

theorem test_extend : reply (after (.extend 0 4095) (commanded (.extend 0 4095) held)) = some (.ok, [0x0F, 0xFF, 1]) := by
  decide +kernel

theorem test_set_mode : (after (.setMode 1) (commanded (.setMode 1) State.reset)).noHold = true := by decide +kernel

theorem test_peek_and_poke : (after (.peek 0x100 4) (commanded (.peek 0x100 4) State.reset)).injected =
      [⟨1, .peek, 0x100, .four, [], .waiting⟩] ∧
    reply (after (.poke 0x20000400 1 [5]) (commanded (.poke 0x20000400 1 [5]) held)) = some (.hazard, []) := by
  decide +kernel

theorem test_access_result : reply (after (.accessResult 7) (commanded (.accessResult 7) { State.reset with
    injected := [⟨7, .poke, 0x20000404, .four, [0xAA, 0xAA, 0, 0], .done⟩] })) =
    some (.ok, [7, 0x29, 0x20, 0, 4, 4, 0xAA, 0xAA, 0, 0]) := by decide +kernel

theorem test_board_commands : (after .eventClear (commanded .eventClear held)).eventLatch = false ∧
    (after .resetRequester (commanded .resetRequester held)).pulse = some 100 ∧
    (after .resetRequester (commanded .resetRequester held)).slot 2 = none := by decide +kernel

/-- CLEAR-UNIT's five events. -/
def cleared (s : State) : State :=
  after .clearUnitEventLatch (after .clearUnitOverlay (after .clearUnitMatchTable (after .clearUnitHolds
    (after .clearUnit (commanded .clearUnit s)))))

theorem test_clear_unit : (cleared parkedBehind).holds = [] ∧ (cleared parkedBehind).table = State.reset.table ∧
    (cleared parkedBehind).eventLatch = false ∧ reply (cleared parkedBehind) = some (.ok, []) ∧
    ((cleared parkedBehind).log.map fun r => r.note.outcome) = [.cleared] ∧
    ((cleared parkedBehind).slot 5).map (·.stage) = some .waiting := by decide +kernel

theorem test_link_commands : (after (.setGroup 23) (commanded (.setGroup 23) State.reset)).groupAddress = some 23 ∧
    (after .forget (commanded .forget State.reset)).forgetPending = true ∧
    (after .responseSent (after .batchEnd (after .forget (commanded .forget State.reset)))).linkAddress = none ∧
    (after (.attentionControl 0) (commanded (.attentionControl 0) State.reset)).attentionEnable = false := by
  decide +kernel

theorem test_commands_that_cannot_run :
    reply (after (.badOpcode 0xFF) (commanded (.badOpcode 0xFF) State.reset)) = some (.badOpcode, []) ∧
    reply (after (.cutCommand 0x10) (commanded (.cutCommand 0x10) State.reset)) = some (.badOperand, []) ∧
    reply (after (.surplusCommand 1) (commanded (.surplusCommand 1) State.reset)) = some (.badOperand, []) := by
  decide +kernel

/-! ### A state that every invariant holds of, with work of every kind in it -/

/-- Slot 0 is ISSUED, slot 1 WAITING, slot 2 HELD, slot 5 PARKED behind it, slot 6 ANSWERING; a hold, a trace record, a store
byte, an injected record; RELEASE of the hold is the batch's command and at the front of the queue. -/
def busy : State :=
  { commanded (.release 0) parkedBehind with
    transit := ((parkedBehind.transit.set 0 (some ⟨2, farRead 0, some .pass, .issued⟩)).set 1
      (some ⟨3, farRead 1, some .pass, .waiting⟩)).set 6 (some ⟨4, farRead 6, some (.fault 1), .answering ⟨.fault, []⟩⟩)
    nextPosition := 5, answerQueue := [6], issueList := [outstanding 0], store := [(4, 0x11)]
    injected := [⟨1, .peek, 0x100, .four, [], .waiting⟩], nextAccessId := 2
    kept := none, pending := [.release 0] }

/-- What is said of every slot that is not FREE. -/
theorem forall_slot {s : State} {P : Tag → Transaction → Prop} (h : ∀ t : Tag, ∀ x ∈ s.slot t, P t x) :
    ∀ t x, s.slot t = some x → P t x := fun t x hx => h t x hx

/-- The stages that carry a response. -/
def Stage.kind : Stage → Nat
  | .parked => 0
  | .held => 1
  | .waiting => 2
  | .issued => 3
  | .heldResponse _ => 4
  | .answering _ => 5
  | .orphan => 6

theorem slotIn_iff (s : State) (t : Tag) (p : Stage → Prop) (q : Stage → Bool) (h : ∀ st, p st ↔ q st = true) :
    s.slotIn t p ↔ ∃ x ∈ s.slot t, q x.stage = true := by
  simp only [State.slotIn, h]
  rfl

theorem answering_iff (st : Stage) : (∃ r, st = .answering r) ↔ decide (Stage.kind st = 5) = true := by
  cases st <;> simp [Stage.kind]

theorem heldResponse_iff (st : Stage) : (∃ r, st = .heldResponse r) ↔ decide (Stage.kind st = 4) = true := by
  cases st <;> simp [Stage.kind]

theorem outstanding_iff (st : Stage) :
    (st = .issued ∨ st = .orphan) ↔ decide (st = .issued ∨ st = .orphan) = true := by simp

theorem held_iff (st : Stage) : st = .held ↔ decide (st = .held) = true := by simp

theorem test_busy_path_sound : busy.PathSound where
  tags := forall_slot (by decide +kernel)
  answerNodup := by decide +kernel
  answering := by
    intro t
    rw [slotIn_iff busy t _ _ answering_iff]
    revert t
    decide +kernel
  holdIds := by decide +kernel
  holdTags := by decide +kernel
  before := by
    intro t
    rw [slotIn_iff busy t _ _ held_iff]
    revert t
    decide +kernel
  after := by
    intro t
    rw [slotIn_iff busy t _ _ heldResponse_iff]
    revert t
    decide +kernel
  issueNodup := by decide +kernel
  issued := by
    intro t
    rw [slotIn_iff busy t _ _ outstanding_iff]
    revert t
    decide +kernel
  accessIds := by decide +kernel
  injected := by decide +kernel

theorem test_busy_parking_sound : busy.ParkingSound where
  order := forall_slot (by decide +kernel)
  clear := forall_slot (by decide +kernel)
  parked := forall_slot (by decide +kernel)

theorem test_busy_bounded : busy.Bounded where
  holds := by decide +kernel
  refusedHolds := by decide +kernel
  divider := by decide +kernel
  log := by decide +kernel
  lost := by decide +kernel
  threshold := by decide +kernel
  injected := by decide +kernel
  accessId := by decide +kernel
  issueList := by decide +kernel
  fairness := by decide +kernel
  checkErrors := by decide +kernel
  pulse := by
    have h : busy.pulse = none := by decide +kernel
    simp [h]
  gap := by decide +kernel

theorem test_busy_store_sound : busy.StoreSound := ⟨by decide +kernel, by decide +kernel⟩

theorem test_busy_table_sound : busy.TableSound := ⟨by decide +kernel, by decide +kernel⟩

theorem test_busy_log_numbered : busy.LogNumbered := by
  have h : busy.log.map (·.seq) = [0] ∧ busy.nextSeq = 1 := by decide +kernel
  intro k r hr
  have hl : busy.log.length = 1 := by simpa using congrArg List.length h.1
  have hk : k = 0 := by
    have := (List.getElem?_eq_some_iff.1 hr).1
    omega
  subst hk
  have hs : r.seq = 0 := by
    have := congrArg (fun l => l[0]?) h.1
    simpa [hr] using this
  rw [hs, hl, h.2]
  rfl

theorem test_busy_budgets_bounded : busy.BudgetsBounded where
  remaining := by decide +kernel
  extended := by decide +kernel
  kept := by
    have h : ∀ t : Tag, ∀ x ∈ busy.slot t, (match x.disposition with | some (.hold _ _ b _) => b | _ => 0) ≤ 4095 := by
      decide +kernel
    intro t x e p b q hx hd
    simpa [hd] using h t x hx
  configured := by decide +kernel

theorem test_busy_mem_tags_distinct : busy.MemTagsDistinct := by
  unfold State.MemTagsDistinct
  decide +kernel

theorem test_busy_link_sound : busy.LinkSound where
  link a h := by cases h; decide
  group := by
    have h : busy.groupAddress = none := by decide +kernel
    simp [h]
  groupNeedsLink := by decide +kernel
  offered a h := by cases h
  running := by decide +kernel
  busy := fun _ => ⟨rfl, (by intro k h; cases h), by intro p h; cases h⟩
  addressed := fun _ _ _ => rfl
  forget := fun _ => .inl rfl

theorem test_busy_responses_fit : busy.ResponsesFit where
  count b h := by cases h; decide
  entries b h := by cases h; rfl
  room b h := by cases h; decide
  clearing b h hc := by cases h; cases hc
  kept r h := by cases h
  sending r h := by cases h

/-! ### Witnesses: states and operands that meet the hypotheses of each statement -/

/-- The hypotheses of the invariants' statements are met by a state with work of every kind, whose step ends its hold. -/
theorem test_witness_invariants : ∃ t, step busy = .next t ∧ busy.Bounded ∧ busy.StoreSound ∧ busy.TableSound ∧
    busy.LogNumbered ∧ busy.BudgetsBounded ∧ busy.MemTagsDistinct ∧ busy.PathSound ∧ busy.ParkingSound ∧ busy.LinkSound ∧
    busy.ResponsesFit ∧ busy.holds.length = 1 ∧ t.holds = [] :=
  ⟨after (.release 0) { busy with pending := [] }, rfl, test_busy_bounded, test_busy_store_sound, test_busy_table_sound,
    test_busy_log_numbered, test_busy_budgets_bounded, test_busy_mem_tags_distinct, test_busy_path_sound,
    test_busy_parking_sound, test_busy_link_sound, test_busy_responses_fit, by decide +kernel, by decide +kernel⟩

theorem test_witness_StepTakesTheFrontCommand : busy.pending = .release 0 :: [] ∧ State.reset.pending = [] ∧
    after (.release 0) { busy with pending := [] } ≠ busy :=
  ⟨rfl, rfl, fun h => absurd (congrArg State.holds h) (by decide +kernel)⟩

/-- A pulse at 0 and a budget step are due: settling completes them, and has nothing left to do. -/
theorem test_witness_SettlingLeavesNothingDue :
    (∀ t x, (heldAfter .proceed 1).slot t = some x → x.request.tag = t) ∧ State.reset.ready ∧
    (let s := { heldAfter .proceed 1 with pulse := some 0, budgetDue := true, divider := 0 }
     s.porAsserted = false ∧ s.settled = false ∧ s.settle.settle = s.settle ∧ s.settle.holds = [] ∧
      s.settle.pulse = none) :=
  ⟨forall_slot (by decide +kernel), by decide, rfl, by decide +kernel, by rfl, by decide +kernel, by decide +kernel⟩

theorem test_witness_OnlyNamedRowsChangeEachField : ∃ t, exec (.tick true) busy = .next t ∧ t.tickCount = 1 ∧
    t.store = [(4, 0x11)] := ⟨_, rfl, by decide +kernel, by decide +kernel⟩

theorem test_witness_EveryStepKeepsTheParkingOrder : busy.pathCandidate = some 1 ∧
    (busy.slot 1).map (·.position) = some 3 ∧ busy.ParkingSound :=
  ⟨by decide +kernel, by decide +kernel, test_busy_parking_sound⟩

/-- POR_N asserted, with no request at the port and with one. -/
theorem test_witness_PowerOnResetHoldsEveryBlock : (after .porNAsserted held).porAsserted = true ∧
    (after .porNAsserted held).presented = none ∧
    (after .porNAsserted { held with presented := some readReq }).porAsserted = true := by decide +kernel

theorem test_witness_ProtocolErrorFaultsAtOnce :
    (State.reset.admits { writeReq with size := .line } ∧
      protocolError { writeReq with size := .line } = some .malformed) ∧
    (State.reset.admits { readReq with addr := 0x20000402 } ∧
      protocolError { readReq with addr := 0x20000402 } = some .misaligned) := by decide +kernel

theorem test_witness_ArrivalTakesItsSlotAndNoOther : holding.TableSound ∧ holding.admits writeReq :=
  ⟨⟨by decide +kernel, by decide +kernel⟩, by decide +kernel⟩

/-- One that waits, and one that parks. -/
theorem test_witness_UnmatchedArrivalWaitsOrParks : protocolError readReq = none ∧
    (State.reset.admits readReq ∧ (∀ i : EntryIndex, State.reset.table[i].hitsOn false readReq readReq.data = false) ∧
      State.reset.blocked 0 readReq = false) ∧
    (held.admits readReq ∧ (∀ i : EntryIndex, held.table[i].hitsOn false readReq readReq.data = false) ∧
      held.blocked 1 readReq = true) := by decide +kernel

/-- A queue of `n` records whose ids are 10 and on. -/
def queueOf (n : Nat) : List Hold :=
  (List.range n).map fun k => ⟨byteOf (10 + k), 1, 3, .after, .read, 0x30000000, .four, .priv, [], none, 5, .fault, 0, false⟩

/-- With three records, with four, and in no-hold mode. -/
theorem test_witness_BeforeHoldIsCreatedSuppressedOrRefused : protocolError writeReq = none ∧
    (earlyDisposition holding.table (firedEntries holding.table false writeReq writeReq.data) =
      .hold 3 .before 10 .proceed) ∧
    (let s := { holding with holds := queueOf 3 }
     s.admits writeReq ∧ s.blocked s.nextPosition writeReq = false ∧ s.noHold = false ∧ s.holds.length = 3) ∧
    (let s := { holding with holds := queueOf 4 }
     s.admits writeReq ∧ s.blocked s.nextPosition writeReq = false ∧ s.noHold = false ∧ s.holds.length = 4) ∧
    (let s := { holding with noHold := true }
     s.admits writeReq ∧ s.blocked s.nextPosition writeReq = false) := by decide +kernel

/-- A fault; an overlaid access that ends on the window's last byte, of each kind; one that runs past it. -/
theorem test_witness_OverlayAndFaultAnswerAtArrival :
    (let s := tabled (config .fault .before ⟨true, true, false⟩)
     s.admits readReq ∧ protocolError readReq = none ∧ (∀ i : EntryIndex, s.table[i].hits < s.table[i].config.threshold) ∧
      earlyDisposition s.table (firedEntries s.table false readReq readReq.data) = .fault 3) ∧
    (let s := tabled (config .overlay .before ⟨true, true, false⟩)
     let r := { readReq with addr := 0x200004FC }
     let w := { writeReq with addr := 0x200004FC }
     s.admits r ∧ s.admits w ∧ s.store = [] ∧ (∀ i : EntryIndex, s.table[i].enabled = true → s.table[i].config.legal = true) ∧
      earlyDisposition s.table (firedEntries s.table false r r.data) = .overlay 3 0x20000400 0x200004FF 0 ∧
      earlyDisposition s.table (firedEntries s.table false w w.data) = .overlay 3 0x20000400 0x200004FF 0 ∧
      (0x200004FC : Word).toNat + 4 - 1 ≤ (0x200004FF : Word).toNat) ∧
    (let s := tabled { config .overlay .before ⟨true, true, false⟩ with limit := 0x200004FD }
     let r := { readReq with addr := 0x200004FC }
     s.admits r ∧ earlyDisposition s.table (firedEntries s.table false r r.data) = .overlay 3 0x20000400 0x200004FD 0 ∧
      ¬ (0x200004FC : Word).toNat + 4 - 1 ≤ (0x200004FD : Word).toNat) := by decide +kernel

/-- A slot in use, a barred port, another request at the port; an answer that waits. -/
theorem test_witness_RequesterPortHandshake :
    (State.reset.ready ∧ held.ready ∧ held.presented = none ∧ (held.slot writeReq.tag).isSome = true) ∧
    ({ State.reset with rqrstIn := true, presented := some readReq }.barred = true) ∧
    ({ State.reset with pulse := some 1 }.barred = true ∧ { State.reset with pulse := some 1 }.ready) ∧
    { State.reset with presented := some readReq }.presented ≠ some writeReq ∧
    (busy.ready ∧ busy.answerQueue = 6 :: [] ∧
      (busy.slot 6).map (·.stage) = some (.answering ⟨.fault, []⟩)) := by decide +kernel

/-- Seven accesses outstanding and eight; each candidate alone, and both at fairness 3 and 4. -/
theorem test_witness_GrantGoesToOneCandidate : busy.ready ∧ busy.pathCandidate = some 1 ∧
    busy.injectedCandidate = some ⟨1, .peek, 0x100, .four, [], .waiting⟩ ∧
    { busy with injected := [] }.injectedCandidate = none ∧
    { busy with issueList := List.replicate 7 (outstanding 0) }.issueList.length < 8 ∧
    { busy with issueList := List.replicate 8 (outstanding 0) }.ready ∧
    ({ busy with fairness := 3 }.fairness ≠ 4 ∧ { busy with fairness := 4 }.ready) ∧
    ({ State.reset with injected := busy.injected }.pathCandidate = none ∧
      { State.reset with injected := busy.injected }.injectedCandidate.isSome = true) ∧
    (State.reset.pathCandidate = none ∧ State.reset.injectedCandidate = none) := by decide +kernel

theorem test_witness_ReturnForOrphanOrInjectedRecord : (State.reset.ready ∧ State.reset.issueList = []) ∧
    (let s := { slotted 1 .orphan .pass with issueList := [outstanding 1] }
     s.ready ∧ s.issueList = ⟨.slot 1, (outstanding 1).sent⟩ :: [] ∧ (s.slot 1).map (·.stage) = some .orphan) ∧
    (let s := { State.reset with issueList := [⟨.injected 1, (outstanding 1).sent⟩] }
     s.ready ∧ s.issueList = ⟨.injected 1, (outstanding 1).sent⟩ :: []) := by decide +kernel

/-- An entry that is evaluated late, for reads of the far word whose lowest byte is 0x3A. -/
def lateTable (a : Action) : Vector MatchEntry 16 :=
  State.reset.table.set 3 ⟨{ config a .after ⟨true, false, false⟩ with
    base := 0x30000000, limit := 0x30000003, cond := some ⟨0xFF, 0x3A⟩ }, true, true, 0⟩

/-- A return whose lowest byte is 0x3A. -/
def matching : MemReturn := ⟨6, .done, [0x3A, 0, 0, 0]⟩

/-- A late FAULT, an early and a late HOLD, no late entry; with room for the hold, with four records, and in no-hold mode. -/
theorem test_witness_ReturnAnswersOrHolds :
    (let s := { issued .pass with table := lateTable .fault }
     ∀ x ∈ s.slot 1, x.stage = .issued ∧ x.request.tag = 1 ∧ decidingEntry s.table (s.lateFired x matching) = some 3 ∧
      s.lateResult x matching = .fault) ∧
    (let s := { issued .pass with table := lateTable .hold }
     ∀ x ∈ s.slot 1, decidingEntry s.table (s.lateFired x matching) = some 3 ∧ s.lateResult x matching = .hold 3 10 .proceed ∧
      (∀ e b p, x.disposition ≠ some (.hold e .after b p)) = True) ∧
    (let s := issued (.hold 2 .after 8 .fault)
     ∀ x ∈ s.slot 1, s.lateFired x matching = [] ∧ s.lateResult x matching = .hold 2 8 .fault ∧
      s.noHold = false ∧ s.holds.length < 4 ∧ { s with holds := queueOf 4 }.ready ∧ { s with noHold := true }.ready) ∧
    (issued .pass).ready ∧ (issued .pass).issueList = ⟨.slot 1, (outstanding 1).sent⟩ :: [] ∧
    (∀ x ∈ (issued .pass).slot 1, (issued .pass).lateResult x matching = .answer ∧
      (issued .pass).lateResult x ⟨6, .fault, []⟩ = .answer ∧
      matching = fitReturn (issued .pass).headGrant x.request.size matching) ∧
    (3 < Size.four.bytes ∧ 3 < matching.data.length ∧ matching.data.length = Size.four.bytes) := by
  refine ⟨by decide +kernel, ?_, by decide +kernel, by decide +kernel, by decide +kernel, by decide +kernel, by decide⟩
  intro s x hx
  have hd : ∀ x ∈ s.slot 1, x.disposition = some .pass ∧ decidingEntry s.table (s.lateFired x matching) = some 3 ∧
      s.lateResult x matching = .hold 3 10 .proceed := by decide +kernel
  exact ⟨(hd x hx).2.1, (hd x hx).2.2, by simp [(hd x hx).1]⟩

theorem test_witness_WindowKindAndPrivilegeTests :
    (let c := { config .hold .before ⟨false, true, false⟩ with base := 0x20000102, limit := 0x20000102, filter := .priv }
     c.base.toNat ≤ c.limit.toNat ∧ c.inWindow ⟨0, .write, 0x20000102, .one, .user, [1]⟩ = true ∧
      c.inWindow ⟨0, .write, 0x20000102, .two, .user, [1, 2]⟩ = true ∧
      c.inWindow ⟨0, .write, 0x20000100, .four, .user, [1, 2, 3, 4]⟩ = true ∧
      c.inWindow ⟨0, .fetch, 0x20000100, .line, .user, []⟩ = true ∧
      c.inWindow ⟨0, .write, 0x20000100, .two, .user, [1, 2]⟩ = false ∧
      c.kinds.has .read = false ∧ c.kinds.fetch = false ∧ c.filter.passes .user = false) := by decide +kernel

/-- Each size, at the last aligned place of its word. -/
theorem test_witness_DataConditionTestsTouchedLanes :
    ((0x20000003 : Word).toNat % Size.one.bytes = 0 ∧ [(1 : Byte)].length = Size.one.bytes) ∧
    ((0x20000002 : Word).toNat % Size.two.bytes = 0 ∧ [(1 : Byte), 2].length = Size.two.bytes) ∧
    ((0x20000004 : Word).toNat % Size.four.bytes = 0 ∧ [(1 : Byte), 2, 3, 4].length = Size.four.bytes) ∧
    ((0x20000010 : Word).toNat % Size.line.bytes = 0 ∧ (List.replicate 16 (0 : Byte)).length = Size.line.bytes) := by decide

/-- A counter below its threshold that does not fire, one that fires, and an entry with a data condition. -/
theorem test_witness_HitsCountAndFire :
    (∀ i : EntryIndex, holding.table[i].hits < holding.table[i].config.threshold) ∧
    firedEntries holding.table false writeReq writeReq.data = [3] ∧
    (let s := tabled { config .hold .before ⟨false, true, false⟩ with threshold := 2 }
     (∀ i : EntryIndex, s.table[i].hits < s.table[i].config.threshold) ∧ s.table[(3 : Fin 16)].hitsOn false writeReq [] = true ∧
      firedEntries s.table false writeReq writeReq.data = []) ∧
    (lateTable .hold)[(3 : Fin 16)].config.cond.isSome = true := by decide +kernel

/-- Entries 3 and 9 fire: 3 with PASS and ONESHOT, 9 with FAULT and a link that arms 3. -/
def linked : State :=
  { tabled { config .pass .before ⟨false, true, false⟩ with oneshot := true } with
    table := ((tabled { config .pass .before ⟨false, true, false⟩ with oneshot := true }).table.set 9
      ⟨{ config .fault .before ⟨false, true, false⟩ with link := some ⟨3, .arm⟩ }, true, true, 0⟩) }

theorem test_witness_LowestFiringDecidesHighestArms :
    firedEntries linked.table false writeReq writeReq.data = [3, 9] ∧
    linked.table[(3 : Fin 16)].config.action = .pass ∧ linked.table[(9 : Fin 16)].config.action = .fault ∧
    linked.table[(3 : Fin 16)].config.oneshot = true ∧
    linked.table[(9 : Fin 16)].config.link = some ⟨3, .arm⟩ ∧
    (linked.evaluated false writeReq writeReq.data).table[(3 : Fin 16)].armed = true ∧
    ((tabled { config .pass .before ⟨false, true, false⟩ with oneshot := true }).evaluated false writeReq
      writeReq.data).table[(3 : Fin 16)].armed = false ∧
    firedEntries State.reset.table false writeReq writeReq.data = [] := by decide +kernel

theorem test_witness_FiringEntriesWithLogAreTraced :
    (∃ t, holding.admits writeReq ∧ protocolError writeReq = none ∧ exec (.requestArrival writeReq) holding = .next t) ∧
    (let s := { issued .pass with table := lateTable .fault }
     ∃ t, s.ready ∧ s.issueList = ⟨.slot 1, (outstanding 1).sent⟩ :: [] ∧
      (∀ x ∈ s.slot 1, x.stage = .issued ∧ matching = fitReturn s.headGrant x.request.size matching) ∧
      exec (.memoryReturn matching) s = .next t) :=
  ⟨⟨_, by decide +kernel, by decide +kernel, rfl⟩, ⟨_, by decide +kernel, by decide +kernel, by decide +kernel, rfl⟩⟩

/-- Indices 15 and 16. -/
theorem test_witness_ArmDisarmAndClearCount : (commanded (.armEntry 15) holding).runs (soleBatch (.armEntry 15)) (.armEntry 15) ∧
    (commanded (.disarmEntry 15) holding).runs (soleBatch (.disarmEntry 15)) (.disarmEntry 15) ∧
    (commanded (.clearCount 16) holding).runs (soleBatch (.clearCount 16)) (.clearCount 16) ∧
    (15 : Byte).toNat < 16 ∧ 16 ≤ (16 : Byte).toNat := by decide +kernel

/-- An enabled entry, a disabled legal one, a disabled illegal one, and no entry. -/
theorem test_witness_EnableAndDisableEntry : (commanded (.enableEntry 3) holding).runs (soleBatch (.enableEntry 3)) (.enableEntry 3) ∧
    holding.table[(3 : Byte).toNat].enabled = true ∧
    (let s := { holding with table := holding.table.set 15 ⟨config .hold .before ⟨false, true, false⟩, false, true, 0⟩ }
     s.table[(15 : Byte).toNat].enabled = false ∧ s.table[(15 : Byte).toNat].config.legal = true) ∧
    (holding.table[(0 : Byte).toNat].enabled = false ∧ holding.table[(0 : Byte).toNat].config.legal = false) ∧
    (commanded (.disableEntry 16) holding).runs (soleBatch (.disableEntry 16)) (.disableEntry 16) := by decide +kernel

theorem test_witness_WriteEntryStoresOrRefuses :
    (commanded (.writeEntry 3 exampleImage) holding).runs (soleBatch (.writeEntry 3 exampleImage)) (.writeEntry 3 exampleImage) ∧
    holding.table[(3 : Byte).toNat].enabled = true ∧ holding.table[(15 : Byte).toNat].enabled = false ∧
    imageDefined exampleImage = true ∧ (imageFields exampleImage).legal = true ∧
    imageDefined (0x39 :: exampleImage.drop 1) = false ∧ (imageFields (List.replicate 27 0)).legal = false := by decide +kernel

/-- Each case of an illegal configuration at a boundary value, beside the legal one next to it (R43). -/
theorem test_witness_illegal_configurations :
    (let h := config .hold .before ⟨false, true, false⟩
     let o := config .overlay .before ⟨true, false, false⟩
     h.legal = true ∧ o.legal = true ∧ { h with limit := h.base }.legal = true ∧ { h with limit := h.base - 1 }.legal = false ∧
      { h with kinds := ⟨false, false, false⟩ }.legal = false ∧ { h with threshold := 0 }.legal = false ∧
      { h with budget := 4095 }.legal = true ∧ { h with budget := 4096 }.legal = false ∧ { h with budget := 0 }.legal = false ∧
      { o with base := o.base + 1 }.legal = false ∧ { o with offset := 192 }.legal = true ∧ { o with offset := 193 }.legal = false ∧
      { o with cond := some ⟨0, 0⟩ }.legal = false ∧ { h with cond := some ⟨0, 0⟩ }.legal = true ∧
      { h with kinds := ⟨true, true, false⟩, cond := some ⟨0, 0⟩ }.legal = false ∧
      { h with kinds := ⟨true, true, false⟩, cond := some ⟨0, 0⟩, point := .after }.legal = true) := by decide +kernel

/-- Defined and undefined values of bytes 0 to 3; an absent arm link's bits are not looked at (R158, R185). -/
theorem test_witness_defined_images :
    (let im := fun (b0 b1 b2 b3 : Byte) => [b0, b1, b2, b3] ++ List.replicate 23 0
     imageDefined (im 0xFC 0x27 0x17 0xAF) = true ∧ imageDefined (im 0xFC 0x27 0x17 0x7F) = true ∧
      imageDefined (im 0x01 0 0 0) = false ∧ imageDefined (im 0 0x30 0 0) = false ∧ imageDefined (im 0 0x08 0 0) = false ∧
      imageDefined (im 0 0 0x08 0) = false ∧ imageDefined (im 0 0 0x20 0) = false ∧ imageDefined (im 0 0 0 0xC0) = false ∧
      imageDefined (im 0 0 0 0x90) = false ∧ (imageFields (im 0 0x20 0x07 0xAF)).link = some ⟨15, .disarm⟩ ∧
      (imageFields (im 0 0x20 0x07 0xAF)).filter = .user ∧ (imageFields (im 0 0x20 0x07 0xAF)).point = .after) := by decide +kernel

/-- Entry 15 and none; counts 1 and 16, ranges that end at word 255, counts 1 and 8 of records, an id in the queue; a log and a
hold queue that are not empty, an entry with an arm link and one with a data condition, a hold at each point. -/
theorem test_witness_ReadingCommandsReturnAndChangeNothing :
    (∀ c : Command, (commanded c held).runs (soleBatch c) c) ∧ (15 : Byte).toNat < 16 ∧
    (240 : Byte).toNat + (16 : Byte).toNat ≤ 256 ∧ (255 : Byte).toNat + (1 : Byte).toNat ≤ 256 ∧
    (held.log.length = 1 ∧ (1 : Byte).toNat ≤ 8 ∧ (8 : Byte).toNat ≤ 8) ∧
    (((commanded (.inspect 0) held).findHold 0).map (·.point) = some .before ∧ held.holds.length = 1) ∧
    ((heldAfter .proceed 5).findHold 7).map (·.point) = some .after ∧
    linked.table[(9 : Fin 16)].config.link = some ⟨3, .arm⟩ ∧ (lateTable .hold)[(3 : Fin 16)].config.cond = some ⟨0xFF, 0x3A⟩ :=
  ⟨fun _ => commanded_runs (by decide +kernel) _, by decide, by decide, by decide, by decide +kernel, by decide +kernel,
    by decide +kernel, by decide +kernel, by decide +kernel⟩

/-- Counts 0, 1, 16 and 17, and a range that runs past word 255 by one. -/
theorem test_witness_WriteOverlayWritesItsWordsOnly :
    (∀ (st n : Byte) (d : List Byte),
      (commanded (.writeOverlay st n d) held).runs (soleBatch (.writeOverlay st n d)) (.writeOverlay st n d)) ∧
    (commanded (.writeOverlay 240 16 (List.replicate 64 7)) held).store = [] ∧ (List.replicate 64 (7 : Byte)).length = 4 * 16 ∧
    ¬ (1 ≤ (0 : Byte).toNat) ∧ ¬ ((17 : Byte).toNat ≤ 16) ∧ ¬ ((241 : Byte).toNat + (16 : Byte).toNat ≤ 256) :=
  ⟨fun _ _ _ => commanded_runs (by decide +kernel) _, by decide +kernel, by decide, by decide, by decide, by decide⟩

/-- A log of `n` records. -/
def logOf (n : Nat) : List TraceRecord := List.replicate n ⟨0, 0, systemNote⟩

/-- 255 records and 256, a threshold that the append meets, both modes. -/
theorem test_witness_TraceAppendRules : ({ State.reset with log := logOf 255, threshold := 256 }.log.length < 256) ∧
    (logOf 255).length + 1 = 256 ∧ 256 ≤ (logOf 256).length ∧
    ({ State.reset with log := logOf 255, threshold := 256 }.append systemNote).attention.trace = some 255 ∧
    ({ State.reset with log := logOf 256, traceMode := .wrap }.append systemNote).lost = 1 ∧
    ({ State.reset with log := logOf 256 }.append systemNote).log.length = 256 := by decide +kernel

/-- Counts 0, 1, 256, 257 and one above the fill; modes 1 and 2; thresholds 256 and 257; flags 7 and 8. -/
theorem test_witness_AckTraceAndTraceControl :
    (∀ n : Half, (commanded (.ackTrace n) held).runs (soleBatch (.ackTrace n)) (.ackTrace n)) ∧
    (∀ (m : Byte) (th : Half) (f : Byte),
      (commanded (.traceControl m th f) held).runs (soleBatch (.traceControl m th f)) (.traceControl m th f)) ∧
    (∀ n : Byte, (commanded (.readTrace n) held).runs (soleBatch (.readTrace n)) (.readTrace n)) ∧
    held.log.length = 1 ∧ (256 : Half).toNat ≤ (logOf 256).length ∧ 256 < (257 : Half).toNat ∧ held.log.length < (2 : Half).toNat :=
  ⟨fun _ => commanded_runs (by decide +kernel) _, fun _ _ _ => commanded_runs (by decide +kernel) _,
    fun _ => commanded_runs (by decide +kernel) _, by decide +kernel, by decide +kernel, by decide, by decide +kernel⟩

/-- A record at each point, in the queue and with its slot, for RELEASE, FAIL, and expiry by each policy. -/
theorem test_witness_HoldEndsInItsOwnWay :
    (∀ (p : Policy) (c : Command), (commanded c (heldAfter p 1)).runs (soleBatch c) c ∧
      (commanded c (heldBefore p 1)).runs (soleBatch c) c) ∧
    (((heldAfter .fault 0).findHold 7).map (·.point) = some .after ∧ ((heldAfter .fault 0).slot 1).isSome = true) ∧
    (((heldBefore .fault 0).findHold 7).map (·.point) = some .before ∧ ((heldBefore .fault 0).slot 1).isSome = true) ∧
    (∀ u : Tag, ∀ y ∈ (heldBefore .fault 0).slot u, y.stage ≠ .parked) ∧
    ((heldAfter .proceed 0).dueHold.map (·.policy) = some .proceed) ∧
    ((heldBefore .fault 0).dueHold.map (·.policy) = some .fault) :=
  ⟨fun p c => ⟨commanded_runs (by cases p <;> decide +kernel) c, commanded_runs (by cases p <;> decide +kernel) c⟩,
    by decide +kernel, by decide +kernel, by decide +kernel, by decide +kernel, by decide +kernel⟩

/-- RELEASE of a hold with a read parked behind it; the same state is right for FAIL, and with its budget at 0 for expiry. -/
theorem test_witness_UnparkingTouchesParkedSlotsOnly : busy.PathSound ∧ busy.runs (soleBatch (.release 0)) (.release 0) ∧
    (busy.findHold 0).map (fun h => (h.point, h.tag)) = some (.before, 2) ∧ (busy.slot 2).map (·.stage) = some .held ∧
    (busy.slot 5).map (·.stage) = some .parked ∧ (commanded (.fail 0) busy).runs (soleBatch (.fail 0)) (.fail 0) ∧
    ({ busy with holds := busy.holds.map fun (h : Hold) => { h with remaining := 0 } }.dueHold).isSome = true :=
  ⟨test_busy_path_sound, by decide +kernel, by decide +kernel, by decide +kernel, by decide +kernel, by decide +kernel,
    by decide +kernel⟩

/-- A length of 3; an id that no record has; a READ held before memory; a LINE's length for a word; the right length. -/
theorem test_witness_AmendChecksAndReplacesData :
    (∀ (id len : Byte) (d : List Byte), (commanded (.amend id len d) held).runs (soleBatch (.amend id len d)) (.amend id len d)) ∧
    ¬ ((3 : Byte).toNat = 1 ∨ (3 : Byte).toNat = 2 ∨ (3 : Byte).toNat = 4 ∨ (3 : Byte).toNat = 16) ∧
    held.findHold 1 = none ∧
    (held.findHold 0).map (fun h => (h.point, h.kind, h.size.bytes)) = some (.before, .write, 4) ∧
    ((heldBefore .proceed 5).findHold 7).map (fun h => (h.point, h.kind)) = some (.before, .read) ∧
    ((heldAfter .proceed 5).findHold 7).map (fun h => (h.point, h.kind, h.size.bytes)) = some (.after, .read, 4) ∧
    (held.slot 2).map (·.request.tag) = some 2 :=
  ⟨fun _ _ _ => commanded_runs (by decide +kernel) _, by decide, by decide +kernel, by decide +kernel, by decide +kernel,
    by decide +kernel, by decide +kernel⟩

/-- The held record has been extended `n` times. -/
def extendedTimes (n : Nat) : State :=
  { held with holds := held.holds.map fun h => { h with extended := n } }

/-- Units 0, 1, 4095 and 4096; extend counts 7 and 8. -/
theorem test_witness_ExtendAddsUnits :
    (∀ (id : Byte) (u : Half), (commanded (.extend id u) held).runs (soleBatch (.extend id u)) (.extend id u)) ∧
    4095 < (4096 : Half).toNat ∧ (4095 : Half).toNat ≤ 4095 ∧ held.findHold 9 = none ∧
    (held.findHold 0).map (·.extended) = some 0 ∧
    ((extendedTimes 7).findHold 0).map (·.extended) = some 7 ∧
    ((extendedTimes 8).findHold 0).map (·.extended) = some 8 :=
  ⟨fun _ _ => commanded_runs (by decide +kernel) _, by decide, by decide, by decide +kernel, by decide +kernel,
    by decide +kernel, by decide +kernel⟩

/-- Operands 0, 1 and 2; no-hold mode on and off; an entry with SIGNAL that fires. -/
theorem test_witness_SetModeAndEventClear :
    (∀ m : Byte, (commanded (.setMode m) held).runs (soleBatch (.setMode m)) (.setMode m)) ∧
    (commanded .eventClear held).runs (soleBatch .eventClear) .eventClear ∧ (2 : Byte) ≠ 0 ∧ (2 : Byte) ≠ 1 ∧
    { held with noHold := true }.noHold = true ∧ held.noHold = false ∧
    (∃ i ∈ firedEntries holding.table false writeReq writeReq.data, holding.table[i].config.signal = true) :=
  ⟨fun _ => commanded_runs (by decide +kernel) _, commanded_runs (by decide +kernel) _, by decide, by decide,
    by decide +kernel, by decide +kernel, by decide +kernel⟩

/-- Four records whose ids are the next ones; two access records likewise, around the wrap. -/
theorem test_witness_NewIdsAreTheFirstUnused :
    ({ State.reset with holds := queueOf 4, nextHoldId := 10 }.holds.length ≤ 4 ∧
      { State.reset with holds := queueOf 4, nextHoldId := 10 }.newHoldId = 14) ∧
    (let s := { State.reset with nextAccessId := 255,
                                 injected := [⟨255, .peek, 0, .one, [], .done⟩, ⟨1, .peek, 0, .one, [], .done⟩] }
     s.injected.length ≤ 2 ∧ s.nextAccessId ≠ 0 ∧ s.newAccessId = 2) := by decide +kernel

/-- Sizes 3 and 4; an unaligned address; one record and two; a hazard and none. -/
theorem test_witness_InjectedAccessesAreCheckedAndQueued :
    (∀ (a : Word) (z : Byte) (d : List Byte), (commanded (.poke a z d) held).runs (soleBatch (.poke a z d)) (.poke a z d) ∧
      (commanded (.peek a z) busy).runs (soleBatch (.peek a z)) (.peek a z)) ∧
    accessSize 3 = none ∧ accessSize 1 = some .one ∧ accessSize 4 = some .four ∧ (0x102 : Word).toNat % 4 ≠ 0 ∧
    busy.injected.length = 1 ∧ held.hazard 0x20000400 true = true ∧ held.hazard 0x20000440 true = false ∧
    held.hazard 0x20000400 false = true ∧
    2 ≤ { busy with injected := busy.injected ++ busy.injected }.injected.length :=
  ⟨fun _ _ _ => ⟨commanded_runs (by decide +kernel) _, commanded_runs (by decide +kernel) _⟩, by decide, by decide, by decide,
    by decide, by decide +kernel, by decide +kernel, by decide +kernel, by decide +kernel, by decide +kernel⟩

/-- The injected record is in a state. -/
def accessIn (st : AccessState) : State :=
  { busy with injected := busy.injected.map fun a => { a with state := st } }

theorem test_witness_AccessResultCollectsFinishedRecords :
    (∀ id : Byte, (commanded (.accessResult id) busy).runs (soleBatch (.accessResult id)) (.accessResult id)) ∧
    busy.findAccess 0 = none ∧ (busy.findAccess 1).map (·.state) = some .waiting ∧
    ((accessIn .issued).findAccess 1).map (·.state) =
      some .issued ∧
    ((accessIn .done).findAccess 1).map (·.state) =
      some .done ∧
    ((accessIn .faulted).findAccess 1).map (·.state) =
      some .faulted :=
  ⟨fun _ => commanded_runs (by decide +kernel) _, by decide +kernel, by decide +kernel, by decide +kernel, by decide +kernel,
    by decide +kernel⟩

/-- The ninth and the tenth tick; a budget step that is due; a pulse at 0. -/
theorem test_witness_TickAndItsDueSteps : ({ heldAfter .fault 2 with divider := 8 }.ready ∧
      { heldAfter .fault 2 with divider := 9 }.ready) ∧
    { heldAfter .fault 2 with budgetDue := true }.budgetDue = true ∧
    ({ State.reset with pulse := some 0 }.pulse = some 0 ∧ State.reset.porAsserted = false) := by decide +kernel

/-- The line not asserted and asserted; no pulse, and one with a tick left; slots in each kind of state. -/
theorem test_witness_RequesterResetClearsThePath : (busy.ready ∧ busy.rqrstIn = false) ∧ { busy with rqrstIn := true }.ready ∧
    ((commanded .resetRequester busy).runs (soleBatch .resetRequester) .resetRequester ∧
      (commanded .resetRequester busy).pulse = none) ∧
    (let s := { commanded .resetRequester busy with pulse := some 1 }
     s.runs (soleBatch .resetRequester) .resetRequester ∧ s.pulse = some (0 + 1)) ∧
    (busy.slot 0).map (·.stage) = some .issued ∧ (busy.slot 1).map (·.stage) = some .waiting ∧ busy.slot 7 = none := by
  decide +kernel

/-- Groups 0, 1, 15, 16, 23 and 24; enables 1 and 2. -/
theorem test_witness_LinkCommandsSetTheirOperand :
    (∀ g : Byte, (commanded (.setGroup g) busy).runs (soleBatch (.setGroup g)) (.setGroup g)) ∧
    (∀ e : Byte, (commanded (.attentionControl e) busy).runs (soleBatch (.attentionControl e)) (.attentionControl e)) ∧
    (commanded .forget busy).runs (soleBatch .forget) .forget ∧
    (1 ≤ (1 : Byte).toNat ∧ (15 : Byte).toNat ≤ 15 ∧ 16 ≤ (16 : Byte).toNat ∧ (23 : Byte).toNat ≤ 23 ∧ 24 ≤ (24 : Byte).toNat) ∧
    1 < (2 : Byte).toNat :=
  ⟨fun _ => commanded_runs (by decide +kernel) _, fun _ => commanded_runs (by decide +kernel) _,
    commanded_runs (by decide +kernel) _, by decide, by decide⟩

/-- CLEAR-UNIT has come so far in the batch. -/
def clearingAt (c : ClearStep) : State :=
  { busy with batch := some { soleBatch .clearUnit with clearing := some c } }

theorem test_witness_ClearUnitIsFiveEvents : (commanded .clearUnit busy).runs (soleBatch .clearUnit) .clearUnit ∧
    ∀ c : ClearStep, (clearingAt c).ready ∧
      (clearingAt c).batch = some { soleBatch .clearUnit with clearing := some c } ∧ (clearingAt c).PathSound ∧
      (clearingAt c).ParkingSound :=
  ⟨commanded_runs (by decide +kernel) _, fun c => ⟨by cases c <;> decide +kernel, rfl,
    ⟨test_busy_path_sound.1, test_busy_path_sound.2, test_busy_path_sound.3, test_busy_path_sound.4, test_busy_path_sound.5,
      test_busy_path_sound.6, test_busy_path_sound.7, test_busy_path_sound.8, test_busy_path_sound.9,
      test_busy_path_sound.10, test_busy_path_sound.11⟩,
    ⟨test_busy_parking_sound.1, test_busy_parking_sound.2, test_busy_parking_sound.3⟩⟩⟩

/-- A skipped command, one without room, one whose turn it is not, and the three commands that cannot run. -/
theorem test_witness_ExecutorAnswersEachCommandOnce :
    (let b := { soleBatch .status with addressed := false }
     b.turn .status = true ∧ broadcastAllowed .status = false ∧ { busy with batch := some b }.ready) ∧
    (let b := ⟨[.status], 0, false, true, List.replicate 8 ⟨0x01, .ok, List.replicate 25 0⟩, false, none⟩
     b.turn .status = true ∧ Batch.room b = 24 ∧ largestEntry .status = 25) ∧
    (soleBatch .status).turn .forget = false ∧
    (commanded (.badOpcode 0xFF) busy).runs (soleBatch (.badOpcode 0xFF)) (.badOpcode 0xFF) ∧
    (commanded (.cutCommand 0x10) busy).runs (soleBatch (.cutCommand 0x10)) (.cutCommand 0x10) ∧
    (commanded (.surplusCommand 0) busy).runs (soleBatch (.surplusCommand 0)) (.surplusCommand 0) := by decide +kernel

theorem test_witness_RefusedCommandChangesNothing : Instr.command? (.release 9) = some (.release 9) ∧
    (commanded (.release 9) busy).runs (soleBatch (.release 9)) (.release 9) ∧
    reply (after (.release 9) (commanded (.release 9) busy)) = some (.noHold, []) := by decide +kernel

/-- A batch that is over: addressed, with the receiver running it and not; a group batch; one stopped before its end. -/
theorem test_witness_BatchEndBuildsTheResponse :
    (let b := (soleBatch .eventClear).answer .eventClear .ok []
     { busy with batch := some b }.ready ∧ b.commands.length ≤ b.position ∧ b.clearing = none ∧ b.addressed = true ∧
      { busy with batch := some b }.receiver = .running ∧
      { busy with batch := some b, receiver := .receiving }.receiver ≠ .running) ∧
    (let b := { (soleBatch .forget).answer .forget .ok [] with addressed := false }
     { busy with batch := some b }.ready ∧ b.commands.length ≤ b.position ∧ b.addressed = false) ∧
    (let b := ⟨[.status, .forget], 1, false, true, [⟨0x01, .noRoom, []⟩], true, none⟩
     Batch.stopped b = true ∧ { busy with batch := some b }.ready) ∧
    (let s := { State.reset with receiver := .responding (buildResponse .empty []) }
     s.porAsserted = false ∧ s.receiver = .responding (buildResponse .empty []) ∧ 24 < 8 * ((buildResponse .empty []).payload.length + 3) + 1 ∧
      8 * ((buildResponse .empty []).payload.length + 3) + 1 < 26 ∧ s.ldaOut 1 = false ∧ s.ldaOut 26 = true) ∧
    (State.reset.receiver = .idle ∧ (after .porNAsserted held).porAsserted = true) ∧
    (15 < 8 * ([0x80, 1] : List Byte).length ∧ (bytesBits [0x80, 1])[0]? = some true ∧ (bytesBits [0x80, 1])[15]? = some true) := by
  decide +kernel

/-- Sixteen commands; an unknown byte, a cut command, and a byte after the sixteenth. -/
theorem test_witness_DivisionFindsEncodedCommands :
    (List.replicate 16 Command.status).length = 16 ∧ Command.wellFormed .status = true ∧ namesCommand 0xFF = false ∧
    takeCommand 0x10 [] = .cut ∧
    dividePayload ((List.replicate 16 Command.status).flatMap Command.encode ++ [0x01]) =
      List.replicate 16 Command.status ++ [.surplusCommand 0x01] ∧
    dividePayload (Command.encode (.poke 0x12345678 2 [9, 8]) ++ [0xFF, 3]) =
      [.poke 0x12345678 2 [9, 8], .badOpcode 0xFF] := by decide +kernel

/-- Destinations 0, 15, 16, 23 and 24 under each kind, with the right and a wrong check byte. -/
theorem test_witness_FrameActionFollowsTheTable :
    (statusFrame.good = true ∧ { statusFrame with check := 0 }.good = false ∧ receiving.linkAddress = some 3) ∧
    ((goodFrame 15 0x81 []).good = true ∧ frameKind 0x81 = some .command ∧ (15 : Byte).toNat ≤ 15) ∧
    ((goodFrame 16 1 []).good = true ∧ (goodFrame 23 1 []).good = true ∧ (goodFrame 24 1 []).good = true ∧
      (goodFrame 0 1 []).good = true ∧ 24 ≤ (24 : Byte).toNat) ∧
    ((goodFrame 15 2 []).good = true ∧ frameKind 2 = some .readback) ∧
    ((goodFrame 0 3 [9]).good = true ∧ frameKind 3 = some .enum ∧ (goodFrame 0 3 []).good = true) ∧
    ((goodFrame 0 4 []).good = true ∧ frameKind 4 = some .poll ∧ (goodFrame 1 4 []).good = true) ∧
    ((goodFrame 0 0x11 []).good = true ∧ frameKind 0x11 = none) := by decide +kernel

/-- Each action of a frame, in RECEIVING with no batch in progress; and a frame that waited. -/
theorem test_witness_TakenFrameHasItsEffect : (receiving.ready ∧ receiving.batch = none ∧ receiving.receiver = .receiving) ∧
    receiving.frameAction { statusFrame with check := 0 } = .reject ∧ receiving.frameAction statusFrame = .command ∧
    receiving.frameAction (goodFrame 16 1 []) = .group ∧ receiving.frameAction (goodFrame 3 2 []) = .readback ∧
    receiving.frameAction (goodFrame 0 3 [9]) = .round (.enum 9) ∧ receiving.frameAction (goodFrame 0 4 []) = .round .poll ∧
    receiving.frameAction (goodFrame 4 1 []) = .nothing ∧
    ({ receiving with receiver := .waiting statusFrame }.ready ∧
      { receiving with receiver := .waiting statusFrame }.receiver = .waiting statusFrame) := by decide +kernel

theorem test_witness_FrameStartAndWaitingFrames : (State.reset.ready ∧ State.reset.receiver.isResponding = false) ∧
    (let s := { State.reset with receiver := .responding (buildResponse .empty []), forgetPending := true }
     s.ready ∧ s.receiver = .responding (buildResponse .empty [])) ∧
    (let s := { busy with receiver := .receiving }
     s.ready ∧ s.batch.isSome = true ∧ s.receiver = .receiving) ∧
    (let s := { busy with receiver := .waiting statusFrame }
     s.ready ∧ s.batch.isSome = true ∧ s.receiver = .waiting statusFrame) := by decide +kernel

/-- A pause of 2000 ticks and of 2001; lengths 240 and 241. -/
theorem test_witness_GapsOverlengthAndResponseEnd :
    ({ State.reset with gap := 2000 }.gap ≤ 2000 ∧ 2000 < (paused .receiving).gap ∧ (paused .receiving).porAsserted = false) ∧
    (roundOf (goodFrame 0 3 [9]) = some (.enum 9) ∧
      (paused (.waiting (goodFrame 0 3 [9]))).receiver = .waiting (goodFrame 0 3 [9])) ∧
    (receiving.ready ∧ receiving.receiver = .receiving ∧ ¬ 240 < (240 : Byte).toNat ∧ 240 < (241 : Byte).toNat) ∧
    { State.reset with receiver := .responding (buildResponse .empty []) }.ready := by decide +kernel

/-- Offered addresses 0, 1, 15 and 16; each flag the highest; attention off; a unit in RUNNING with the round's frame, its batch
in progress and over. -/
theorem test_witness_RoundStartDecidesTakingPart :
    (let s := { State.reset with receiver := .ready (.enum 1) }
     s.ready ∧ s.batch = none ∧ s.linkAddress = none ∧ (0 : Byte).toNat = 0 ∧ (15 : Byte).toNat ≤ 15 ∧ 15 < (16 : Byte).toNat) ∧
    (let s := { State.reset with receiver := .ready .poll, attention := ⟨false, some 1, some 2, some 3⟩ }
     s.ready ∧ s.attentionEnable = true ∧ s.attention.highest = some (.hold, 1) ∧
      { s with attention := ⟨true, some 1, none, none⟩ }.attention.highest = some (.join, 0) ∧
      { s with attention := ⟨false, none, some 2, some 3⟩ }.attention.highest = some (.expiry, 2) ∧
      { s with attention := ⟨false, none, none, some 3⟩ }.attention.highest = some (.trace, 3) ∧
      { s with attention := ⟨false, none, none, none⟩ }.attention.highest = none) ∧
    (let s := { busy with receiver := .waiting (goodFrame 0 3 [9]) }
     s.ready ∧ s.receiver = .waiting (goodFrame 0 3 [9]) ∧ roundOf (goodFrame 0 3 [9]) = some (.enum 9) ∧
      s.batch.isSome = true) ∧
    (let s := { busy with receiver := .waiting (goodFrame 0 3 [9]), batch := none, linkAddress := none }
     s.ready ∧ s.receiver = .waiting (goodFrame 0 3 [9]) ∧ s.batch = none ∧ s.linkAddress = none) ∧
    (let s := { busy with receiver := .waiting (goodFrame 0 4 []), batch := none }
     s.ready ∧ roundOf (goodFrame 0 4 []) = some .poll ∧ s.attentionEnable = true ∧ s.attention.join = true) ∧
    State.reset.frameAction (goodFrame 0 4 []) = .round .poll := by decide +kernel

theorem test_witness_awaits_round :
    { State.reset with receiver := .ready (.enum 1) }.awaitsRound (.enum 1) ∧
    { busy with receiver := .waiting (goodFrame 0 3 [9]) }.awaitsRound (.enum 9) ∧
    { busy with receiver := .waiting (goodFrame 0 4 []) }.awaitsRound .poll :=
  ⟨.inl rfl, .inr ⟨_, rfl, by decide +kernel⟩, .inr ⟨_, rfl, by decide +kernel⟩⟩

/-- An ENUM part, a POLL part and one posted again; slots that send a 1 and that do not. -/
theorem test_witness_RoundsCompleteOrAreLost :
    { State.reset with receiver := .round (.enum 15) }.ready ∧
    (let s := { State.reset with receiver := .round (.poll .hold 9 false) }
     s.ready ∧ s.roundBits[(12 : Nat) - 1]? = some false ∧ s.roundBits[(11 : Nat) - 1]? = some true ∧
      s.roundBits[(29 : Nat) - 1]? ≠ some true ∧ s.porAsserted = false ∧ s.ldaOut 11 = true ∧ s.ldaOut 12 = false ∧
      s.ldaOut 29 = true) ∧
    { State.reset with receiver := .round (.poll .hold 9 true) }.ready := by decide +kernel

end Sys2Proof.Tests
end

-- ==== What each row changes ====
section
/-! What each row of the opcode table may change, said once. `Piece` names the pieces of state that the path's statements look
at, `KeepsAllBut ps s t` says that `t` differs from `s` in the pieces `ps` alone, and `exec_keeps` gives every row its list. -/

namespace Sys2Proof.Machine

/-- A piece of state: the fields that the same rows change. -/
inductive Piece
  | identity
  | power
  | clock
  | line
  | pulse
  | latch
  | port
  | slots
  | issue
  | grants
  | table
  | holds
  | mode
  | store
  | log
  | trace
  | injected
  | accessId
  | gap
  | enable
  | checks
  deriving DecidableEq, Repr

/-- The piece is the same in two states. -/
def Piece.Same (s t : State) : Piece → Prop
  | .identity => (t.pending, t.serial, t.revision) = (s.pending, s.serial, s.revision)
  | .power => t.porAsserted = s.porAsserted
  | .clock => (t.tickCount, t.divider) = (s.tickCount, s.divider)
  | .line => t.rqrstIn = s.rqrstIn
  | .pulse => t.pulse = s.pulse
  | .latch => t.eventLatch = s.eventLatch
  | .port => (t.nextPosition, t.presented) = (s.nextPosition, s.presented)
  | .slots => (t.transit, t.answerQueue) = (s.transit, s.answerQueue)
  | .issue => t.issueList = s.issueList
  | .grants => (t.fairness, t.freeCount) = (s.fairness, s.freeCount)
  | .table => t.table = s.table
  | .holds => (t.holds, t.nextHoldId, t.refusedHolds) = (s.holds, s.nextHoldId, s.refusedHolds)
  | .mode => t.noHold = s.noHold
  | .store => t.store = s.store
  | .log => (t.log, t.nextSeq, t.lost) = (s.log, s.nextSeq, s.lost)
  | .trace => (t.traceMode, t.threshold, t.protocolRecords) = (s.traceMode, s.threshold, s.protocolRecords)
  | .injected => t.injected = s.injected
  | .accessId => t.nextAccessId = s.nextAccessId
  | .gap => t.gap = s.gap
  | .enable => t.attentionEnable = s.attentionEnable
  | .checks => t.checkErrors = s.checkErrors

theorem Piece.Same.refl (s : State) (p : Piece) : p.Same s s := by cases p <;> rfl

theorem Piece.Same.trans {s t u : State} {p : Piece} (h : p.Same s t) (k : p.Same t u) : p.Same s u := by
  cases p <;> exact Eq.trans k h

/-- `t` differs from `s` in the pieces `ps` alone, the link's own state and the batch apart. -/
def KeepsAllBut (ps : List Piece) (s t : State) : Prop := ∀ p, p ∈ ps ∨ p.Same s t

namespace KeepsAllBut

variable {ps qs : List Piece} {s t u : State}

theorem refl (ps : List Piece) (s : State) : KeepsAllBut ps s s := fun p => .inr (Piece.Same.refl s p)

theorem trans (h : KeepsAllBut ps s t) (k : KeepsAllBut ps t u) : KeepsAllBut ps s u := fun p =>
  (h p).elim .inl fun hp => (k p).elim .inl fun kp => .inr (hp.trans kp)

theorem mono (h : KeepsAllBut ps s t) (sub : ps ⊆ qs) : KeepsAllBut qs s t := fun p => (h p).imp_left (@sub p)

theorem same (h : KeepsAllBut ps s t) {p : Piece} (hp : p ∉ ps) : p.Same s t := (h p).resolve_left hp

end KeepsAllBut

/-! ### The frames of the shared operations as lists of pieces -/

theorem LogFrame.keeps {s t : State} (h : LogFrame s t) : KeepsAllBut [.log] s t := by
  intro p
  cases p <;> simp [Piece.Same, h.porAsserted, h.rqrstIn, h.pulse, h.eventLatch, h.tickCount, h.transit, h.nextPosition,
    h.presented, h.answerQueue, h.issueList, h.fairness, h.table, h.holds, h.nextHoldId, h.refusedHolds, h.noHold, h.divider,
    h.store, h.traceMode, h.threshold, h.protocolRecords, h.injected, h.nextAccessId, h.gap, h.attentionEnable, h.checkErrors,
    h.serial, h.revision, h.freeCount, h.pending]

theorem HoldFrame.keeps {s t : State} (h : HoldFrame s t) : KeepsAllBut [.slots, .holds, .log] s t := by
  intro p
  cases p <;> simp [Piece.Same, h.porAsserted, h.rqrstIn, h.pulse, h.eventLatch, h.tickCount, h.nextPosition, h.presented,
    h.issueList, h.fairness, h.table, h.noHold, h.divider, h.store, h.traceMode, h.threshold, h.protocolRecords, h.injected,
    h.nextAccessId, h.gap, h.attentionEnable, h.checkErrors, h.serial, h.revision, h.freeCount, h.pending]

/-- The pieces that completing what is due may change (R67, R68, R178). -/
def duePieces : List Piece := [.slots, .holds, .log, .pulse]

theorem SettleFrame.keeps {s t : State} (h : SettleFrame s t) : KeepsAllBut duePieces s t := by
  intro p
  cases p <;> simp [duePieces, Piece.Same, h.porAsserted, h.rqrstIn, h.eventLatch, h.tickCount, h.nextPosition, h.presented,
    h.issueList, h.fairness, h.table, h.noHold, h.divider, h.store, h.traceMode, h.threshold, h.protocolRecords, h.injected,
    h.nextAccessId, h.gap, h.attentionEnable, h.checkErrors, h.serial, h.revision, h.freeCount, h.pending]

/-! ### The rows as effects on a state -/

/-- The command that a command row takes, and what it does at the block that owns the state (R147, R148). -/
def commandBody : Instr → Option (Command × (State → Reply))
  | .status => some (.status, statusBody)
  | .getIdentity => some (.getIdentity, identityBody)
  | .readEntry i => some (.readEntry i, withEntry i readEntryAt)
  | .writeEntry i im => some (.writeEntry i im, withEntry i (writeEntryAt im))
  | .enableEntry i => some (.enableEntry i, withEntry i enableEntryAt)
  | .disableEntry i => some (.disableEntry i, withEntry i disableEntryAt)
  | .armEntry i => some (.armEntry i, withEntry i (armEntryAt true))
  | .disarmEntry i => some (.disarmEntry i, withEntry i (armEntryAt false))
  | .clearCount i => some (.clearCount i, withEntry i clearCountAt)
  | .readOverlay a n => some (.readOverlay a n, readOverlayBody a n)
  | .writeOverlay a n d => some (.writeOverlay a n d, writeOverlayBody a n d)
  | .readTrace n => some (.readTrace n, readTraceBody n)
  | .ackTrace n => some (.ackTrace n, ackTraceBody n)
  | .traceControl m n f => some (.traceControl m n f, traceControlBody m n f)
  | .listHolds => some (.listHolds, listHoldsBody)
  | .inspect id => some (.inspect id, withHold id inspectHold)
  | .release id => some (.release id, withHold id releaseHold)
  | .amend id n d => some (.amend id n d, amendBody id n d)
  | .fail id => some (.fail id, withHold id failHold)
  | .extend id u => some (.extend id u, extendBody id u)
  | .setMode m => some (.setMode m, setModeBody m)
  | .peek a z => some (.peek a z, injectBody .peek a z [])
  | .poke a z d => some (.poke a z d, injectBody .poke a z d)
  | .accessResult id => some (.accessResult id, accessResultBody id)
  | .eventClear => some (.eventClear, eventClearBody)
  | .resetRequester => some (.resetRequester, resetRequesterBody)
  | .setGroup g => some (.setGroup g, setGroupBody g)
  | .forget => some (.forget, forgetBody)
  | .attentionControl e => some (.attentionControl e, attentionControlBody e)
  | .badOpcode b => some (.badOpcode b, refuse .badOpcode)
  | .cutCommand b => some (.cutCommand b, refuse .badOperand)
  | .surplusCommand b => some (.surplusCommand b, refuse .badOperand)
  | _ => none

/-- A later event of CLEAR-UNIT as an effect: it acts when it comes next (R171). -/
def clearingEffect (c : ClearStep) (f : State → State) (s : State) : State := if s.clearingStep = some c then f s else s

/-- The effect of an event row that is taken once what is due has been completed, CLEAR-UNIT's five among them. -/
def eventEffect : Instr → Option (State → State)
  | .responseTaken => some State.takeResponse
  | .memoryPortGrant => some State.grant
  | .memoryReturn r => some (State.takeReturn r)
  | .tick b => some (State.countTick b)
  | .rqrstInAsserted => some State.assertRqrstIn
  | .rqrstInDeasserted => some State.deassertRqrstIn
  | .frameStart => some State.startFrame
  | .overlengthFrame _ _ n => some (State.overlength n)
  | .badCheckFrame f | .commandFrame f | .groupCommandFrame f | .readbackFrame f | .enumFrame f | .pollFrame f
  | .frameNotActedOn f => some (State.checkTaken f)
  | .deferredFrameAction => some State.actDeferred
  | .batchEnd => some State.endBatch
  | .responseSent => some State.responseDone
  | .roundStart => some State.startRound
  | .enumComplete => some State.completeEnum
  | .pollComplete => some State.completePoll
  | .arbitrationLoss n => some (State.loseRound n)
  | .clearUnit => some (State.takeCommand .clearUnit fun s => s.clearTrace.setClearing (some .holds))
  | .clearUnitHolds => some (clearingEffect .holds fun s => s.clearHolds.setClearing (some .matchTable))
  | .clearUnitMatchTable => some (clearingEffect .matchTable fun s => s.clearTable.setClearing (some .overlay))
  | .clearUnitOverlay => some (clearingEffect .overlay fun s => State.setClearing (some .eventLatch) { s with store := [] })
  | .clearUnitEventLatch =>
    some (clearingEffect .eventLatch fun s => State.answer .clearUnit .ok [] { s with eventLatch := false })
  | _ => none

/-- The step that a row takes when a tick has made it due (log entry 5). -/
def dueEffect : Instr → Option (State → State)
  | .budgetStep => some State.stepBudgets
  | .holdExpiry => some State.expireNext
  | .pulseEnd => some State.endPulse
  | .gapAbort => some State.abortFrame
  | .responseGapAbandon => some State.abandonResponse
  | .roundGapAbandon => some State.abandonRound
  | _ => none

theorem exec_of_commandBody {c : Instr} {k : Command} {body : State → Reply} (h : commandBody c = some (k, body))
    (s : State) : exec c s = s.command k body := by
  cases c <;> cases h <;> rfl

theorem exec_of_eventEffect {c : Instr} {f : State → State} (h : eventEffect c = some f) (s : State) :
    exec c s = s.event f := by
  cases c <;> cases h <;> rfl

theorem exec_of_dueEffect {c : Instr} {f : State → State} (h : dueEffect c = some f) (s : State) :
    exec c s = s.dueEvent f := by
  cases c <;> cases h <;> rfl

/-- Every block at its power-on values, with POR_N and RQRST_IN at the levels given (R180, R181). -/
def State.inReset (por l : Bool) (s : State) : State := { s.powerOn with porAsserted := por, rqrstIn := l }

/-- What a row can do to a state. -/
inductive RowStep (s : State) : Instr → State → Prop
  /-- It does nothing. -/
  | idle (c : Instr) : RowStep s c s
  /-- A request is left presented while POR_N is asserted (R5). -/
  | leftInReset (r : Request) : RowStep s (.requestArrival r) (s.leavePresented r)
  /-- A request that is not accepted is left presented (R5). -/
  | left (r : Request) : RowStep s (.requestArrival r) (s.settle.leavePresented r)
  /-- A request arrives in its FREE slot (R6). -/
  | arrived {r : Request} {t : State} (free : s.settle.slot r.tag = none) (ht : s.settle.arrive r = .next t) :
    RowStep s (.requestArrival r) t
  /-- POR_N is asserted (R180). -/
  | powerDown : RowStep s .porNAsserted (s.inReset true s.rqrstIn)
  /-- POR_N is released (R181). -/
  | powerUp (l : Bool) : RowStep s (.porNReleased l) (s.inReset false l)
  /-- A step that a tick has made due. -/
  | due {c : Instr} {f : State → State} (hf : dueEffect c = some f) : RowStep s c (f s)
  /-- An event, once what is due has been completed. -/
  | event {c : Instr} {f : State → State} (hf : eventEffect c = some f) : RowStep s c (f s.settle)
  /-- A command, once what is due has been completed. -/
  | command {c : Instr} {k : Command} {body : State → Reply} (hk : commandBody c = some (k, body)) :
    RowStep s c (s.settle.takeCommand k (State.runBody k body))

theorem rowStep_requestArrival {r : Request} {s t : State} (h : execRequestArrival r s = .next t) :
    RowStep s (.requestArrival r) t := by
  unfold execRequestArrival State.present at h
  split at h
  · cases h; exact .leftInReset r
  · split at h
    · next ha =>
      simp only [Bool.and_eq_true, State.accepts, Option.isNone_iff_eq_none] at ha
      exact .arrived ha.2.1 h
    · cases h; exact .left r

theorem rowStep_porNReleased {l : Bool} {s t : State} (h : execPorNReleased l s = .next t) :
    RowStep s (.porNReleased l) t := by
  unfold execPorNReleased at h
  split at h <;> cases h
  · exact .powerUp l
  · exact .idle _

/-- The inversion of `exec`: whatever a row answers is one of the outcomes of `RowStep`. -/
theorem rowStep_of_exec {c : Instr} {s t : State} (h : exec c s = .next t) : RowStep s c t := by
  rcases hk : commandBody c with _ | ⟨k, body⟩
  · rcases he : eventEffect c with _ | f
    · rcases hd : dueEffect c with _ | f
      · cases c <;> cases hk <;> cases he <;> cases hd
        · exact rowStep_requestArrival h
        · cases h; exact .powerDown
        · exact rowStep_porNReleased h
        · cases h; exact .idle _
      · rw [exec_of_dueEffect hd] at h
        rcases dueEvent_cases h with ⟨-, rfl⟩ | ⟨-, rfl⟩
        · exact .idle c
        · exact .due hd
    · rw [exec_of_eventEffect he] at h
      rcases event_cases h with ⟨-, rfl⟩ | ⟨-, rfl⟩
      · exact .idle c
      · exact .event he
  · rw [exec_of_commandBody hk] at h
    rcases event_cases h with ⟨-, rfl⟩ | ⟨-, rfl⟩
    · exact .idle c
    · exact .command hk

/-! ### What each row touches -/

/-- The pieces that an arrival may change (R6 to R10). -/
def arrivalPieces : List Piece := [.port, .slots, .holds, .log, .table, .latch, .store]

/-- The pieces that a return may change (R16 to R19). -/
def returnPieces : List Piece := [.slots, .issue, .holds, .log, .table, .latch, .injected]

/-- The pieces that the POR_N rows may change. -/
def powerPieces : List Piece :=
  [.power, .clock, .line, .pulse, .latch, .port, .slots, .issue, .grants, .table, .holds, .mode, .store, .log, .trace,
    .injected, .accessId, .gap, .enable, .checks]

/-- The pieces that a row itself may change, what is due apart. -/
def touches : Instr → List Piece
  | .requestArrival _ => arrivalPieces
  | .responseTaken => [.slots]
  | .memoryPortGrant => [.slots, .issue, .grants, .injected]
  | .memoryReturn _ => returnPieces
  | .tick _ => [.clock, .pulse, .gap]
  | .budgetStep | .extend _ _ => [.holds]
  | .holdExpiry | .release _ | .fail _ => [.slots, .holds, .log]
  | .pulseEnd => [.pulse]
  | .rqrstInAsserted => [.line, .slots, .holds, .log]
  | .rqrstInDeasserted => [.line]
  | .porNAsserted | .porNReleased _ => powerPieces
  | .frameStart | .deferredFrameAction | .batchEnd | .roundStart => [.gap]
  | .badCheckFrame _ | .commandFrame _ | .groupCommandFrame _ | .readbackFrame _ | .enumFrame _ | .pollFrame _
  | .frameNotActedOn _ => [.gap, .checks]
  | .writeEntry _ _ | .enableEntry _ | .disableEntry _ | .armEntry _ | .disarmEntry _ | .clearCount _
  | .clearUnitMatchTable => [.table]
  | .writeOverlay _ _ _ | .clearUnitOverlay => [.store]
  | .ackTrace _ => [.log]
  | .traceControl _ _ _ | .clearUnit => [.log, .trace]
  | .amend _ _ _ => [.slots, .holds]
  | .setMode _ => [.mode]
  | .peek _ _ | .poke _ _ _ => [.injected, .accessId]
  | .accessResult _ => [.injected]
  | .eventClear | .clearUnitEventLatch => [.latch]
  | .resetRequester => [.pulse, .slots, .holds, .log]
  | .clearUnitHolds => [.slots, .holds, .log, .mode]
  | .attentionControl _ => [.enable]
  | _ => []

/-! The path's events. -/

theorem accepted_keeps (s : State) : KeepsAllBut [.port] s s.accepted := by
  intro p; cases p <;> simp [Piece.Same]

theorem leavePresented_keeps (r : Request) (s : State) : KeepsAllBut [.port] s (s.leavePresented r) := by
  intro p; cases p <;> simp [Piece.Same]

theorem evaluated_keeps (late : Bool) (r : Request) (d : List Byte) (s : State) :
    KeepsAllBut [.table, .latch] s (s.evaluated late r d) := by
  intro p; cases p <;> simp [Piece.Same]

theorem takeResponse_keeps (s : State) : KeepsAllBut [.slots] s s.takeResponse := by
  unfold State.takeResponse
  split
  · exact .refl _ s
  · intro p; cases p <;> simp [Piece.Same]

theorem grantPath_keeps (t : Tag) (x : Transaction) (s : State) :
    KeepsAllBut [.slots, .issue, .grants] s (s.grantPath t x) := by
  intro p; cases p <;> simp [Piece.Same]

theorem grantInjected_keeps (a : Access) (s : State) : KeepsAllBut [.issue, .grants, .injected] s (s.grantInjected a) := by
  intro p; cases p <;> simp [Piece.Same]

theorem updateAccess_keeps (id : Byte) (f : Access → Access) (s : State) :
    KeepsAllBut [.injected] s (s.updateAccess id f) := by
  intro p; cases p <;> simp [Piece.Same]

theorem freeSlot_keeps (t : Tag) (s : State) : KeepsAllBut [.slots] s (s.freeSlot t) := by
  intro p; cases p <;> simp [Piece.Same]

/-- The issue list takes new contents (R16). -/
def State.putIssue (l : List IssueEntry) (s : State) : State := { s with issueList := l }

theorem putIssue_keeps (l : List IssueEntry) (s : State) : KeepsAllBut [.issue] s (s.putIssue l) := by
  intro p; cases p <;> simp [Piece.Same, State.putIssue]

/-- The overlay store takes new contents (R77). -/
def State.putStore (m : List Host.Cell) (s : State) : State := { s with store := m }

theorem putStore_keeps (m : List Host.Cell) (s : State) : KeepsAllBut [.store] s (s.putStore m) := by
  intro p; cases p <;> simp [Piece.Same, State.putStore]

/-! ### What the path's events can do -/

/-- What one grant can do (R14). -/
inductive Granted (s : State) : State → Prop
  /-- No grant is made. -/
  | none (h : 8 ≤ s.issueList.length ∨ s.pathCandidate = none ∧ s.injectedCandidate = none) : Granted s s
  /-- The path candidate is granted the port. -/
  | path {t : Tag} {x : Transaction} (room : s.issueList.length < 8) (ht : s.pathCandidate = some t) (hx : s.slot t = some x)
    (turn : s.injectedCandidate = Option.none ∨ s.fairness ≠ 4) : Granted s (s.grantPath t x)
  /-- The injected candidate is granted the port. -/
  | injected {a : Access} (room : s.issueList.length < 8) (ha : s.injectedCandidate = some a)
    (turn : s.pathCandidate = Option.none ∨ s.fairness = 4) : Granted s (s.grantInjected a)

theorem isWaiting_iff (s : State) (t : Tag) : s.isWaiting t = true ↔ ∃ x, s.slot t = some x ∧ x.stage = .waiting := by
  unfold State.isWaiting
  cases s.slot t <;> simp

/-- The fold that the path candidate is found by keeps the smallest position. -/
theorem foldl_earlier (s : State) (t : Tag) (ts : List Tag) :
    ∃ u ∈ t :: ts, ts.foldl s.earlier (some t) = some u ∧ ∀ v ∈ t :: ts, s.positionOf u ≤ s.positionOf v := by
  induction ts generalizing t with
  | nil => exact ⟨t, by simp⟩
  | cons w ts ih =>
    by_cases hw : s.positionOf t ≤ s.positionOf w
    · obtain ⟨u, hu, hf, hmin⟩ := ih t
      have hut := hmin t (List.mem_cons_self ..)
      refine ⟨u, by simp at hu ⊢; tauto, by simpa [State.earlier, hw] using hf, fun v hv => ?_⟩
      simp only [List.mem_cons] at hv hmin
      rcases hv with rfl | rfl | hv
      · exact hut
      · exact hut.trans hw
      · exact hmin v (.inr hv)
    · obtain ⟨u, hu, hf, hmin⟩ := ih w
      have huw := hmin w (List.mem_cons_self ..)
      refine ⟨u, by simp at hu ⊢; tauto, by simpa [State.earlier, hw] using hf, fun v hv => ?_⟩
      simp only [List.mem_cons] at hv hmin
      rcases hv with rfl | rfl | hv
      · omega
      · exact huw
      · exact hmin v (.inr hv)

theorem mem_waitingTags (s : State) (t : Tag) : t ∈ allTags.filter s.isWaiting ↔ s.isWaiting t = true := by
  simp [mem_allTags]

/-- The path candidate is a WAITING slot with the smallest position (R14). -/
theorem pathCandidate_least {s : State} {u : Tag} (h : s.pathCandidate = some u) :
    s.isWaiting u = true ∧ ∀ v, s.isWaiting v = true → s.positionOf u ≤ s.positionOf v := by
  unfold State.pathCandidate at h
  rcases hl : allTags.filter s.isWaiting with _ | ⟨t, ts⟩
  · simp [hl] at h
  · obtain ⟨w, hw, hf, hmin⟩ := foldl_earlier s t ts
    rw [hl, List.foldl_cons, State.earlier, hf, Option.some.injEq] at h
    subst h
    simp only [← hl, mem_waitingTags] at hw hmin
    exact ⟨hw, hmin⟩

/-- There is a path candidate exactly when a slot is WAITING. -/
theorem pathCandidate_eq_none_iff (s : State) : s.pathCandidate = none ↔ ∀ v, s.isWaiting v = false := by
  have hmem := mem_waitingTags s
  unfold State.pathCandidate
  rcases hl : allTags.filter s.isWaiting with _ | ⟨t, ts⟩
  · rw [hl] at hmem
    simpa using hmem
  · obtain ⟨w, hw, hf, -⟩ := foldl_earlier s t ts
    rw [← hl, mem_waitingTags] at hw
    simp only [List.foldl_cons, State.earlier, hf, reduceCtorEq, false_iff, not_forall]
    exact ⟨w, by simp [hw]⟩

theorem granted (s : State) : Granted s s.grant := by
  unfold State.grant State.grantTo
  split
  · next room =>
    split
    · next t hp hi =>
      obtain ⟨x, hx, -⟩ := (isWaiting_iff s t).1 (pathCandidate_least hp).1
      rw [hx]
      exact .path room hp hx (.inl hi)
    · next t a hp hi =>
      obtain ⟨x, hx, -⟩ := (isWaiting_iff s t).1 (pathCandidate_least hp).1
      split
      · next hf => exact .injected room hi (.inr hf)
      · next hf => rw [hx]; exact .path room hp hx (.inr hf)
    · next a hp hi => exact .injected room hi (.inl hp)
    · next hp hi => exact .none (.inr ⟨hp, hi⟩)
  · next room => exact .none (.inl (Nat.le_of_not_lt room))

/-- The early disposition of a request (R33). -/
def State.early (r : Request) (s : State) : Disposition := earlyDisposition s.table (firedEntries s.table false r r.data)

/-- The record that a request arrives with (R6, R7). -/
def State.entrant (r : Request) (s : State) : Transaction := s.newTransaction r (some (s.early r)) .waiting

/-- The state after a request's acceptance and early evaluation (R5, R34). -/
def State.judged (r : Request) (s : State) : State := s.accepted.evaluated false r r.data

/-- The records of an arrival with a verdict (R35, R94). -/
def State.arrivalNotes (r : Request) (v : Verdict) (s : State) : List TraceNote :=
  fireNotes .fire s.table (firedEntries s.table false r r.data) r (firedData r) v ++ v.after

theorem arriveRight_of_fault {s : State} {r : Request} {e : EntryIndex} (h : s.early r = .fault e) :
    s.arriveRight r = .next (((s.judged r).answerSlot r.tag (s.entrant r) faultResponse).appendAll
      (s.arrivalNotes r ⟨.faulted, none, []⟩)) := by
  have hd : earlyDisposition s.table (firedEntries s.table false r r.data) = .fault e := h
  simp only [State.arriveRight, State.entrant, State.arrivalNotes, hd, h]
  rfl

theorem arriveRight_of_overlay {s : State} {r : Request} {e : EntryIndex} {base limit : Word} {offset : Nat}
    (h : s.early r = .overlay e base limit offset) :
    s.arriveRight r = match serveOverlay base limit offset r s.store with
      | .served resp store => .next ((((s.judged r).putStore store).answerSlot r.tag (s.entrant r) resp).appendAll
          (s.arrivalNotes r ⟨.overlaid, none, []⟩))
      | .straddle => .next (((s.judged r).answerSlot r.tag (s.entrant r) faultResponse).appendAll
          (s.arrivalNotes r ⟨.overlayStraddle, none, []⟩))
      | .outside => .fault .overlayAddress := by
  have hd : earlyDisposition s.table (firedEntries s.table false r r.data) = .overlay e base limit offset := h
  simp only [State.arriveRight, State.entrant, State.arrivalNotes, hd, h]
  cases serveOverlay base limit offset r s.store <;> rfl

/-- A PASS or HOLD disposition goes toward memory (R9, R10). -/
theorem arriveRight_of_entering {s : State} {r : Request}
    (h : s.early r = .pass ∨ ∃ e p b q, s.early r = .hold e p b q) :
    s.arriveRight r = .next (((s.judged r).enter (s.entrant r)).appendAll
      (s.arrivalNotes r ((s.judged r).enterVerdict (s.entrant r)))) := by
  generalize hd : s.early r = d at h
  have hd' : earlyDisposition s.table (firedEntries s.table false r r.data) = d := hd
  obtain rfl | ⟨e, p, b, q, rfl⟩ := h <;>
  · simp only [State.arriveRight, State.entrant, State.arrivalNotes, hd, hd']
    rfl

/-- What an arrival can do (R4, R8 to R10): a slot answered at once, with the records of the event, or a slot that enters the
path. -/
inductive Arrived (s : State) (r : Request) : State → Prop
  /-- The request fails the protocol check. -/
  | wrong {o : TraceOutcome} (ho : protocolError r = some o) : Arrived s r (s.arriveWrong r o)
  /-- A FAULT or OVERLAY disposition is answered; the store is as it was, or has taken the write. -/
  | answered {resp : BusResponse} {store : List Host.Cell} (ns : List TraceNote)
    (hs : store = s.store ∨ ∃ e base limit offset, s.early r = .overlay e base limit offset ∧
      serveOverlay base limit offset r s.store = .served resp store) (ok : protocolError r = none) :
    Arrived s r ((((s.judged r).putStore store).answerSlot r.tag (s.entrant r) resp).appendAll ns)
  /-- A PASS or HOLD disposition goes toward memory. -/
  | entered (ns : List TraceNote) (ok : protocolError r = none) : Arrived s r (((s.judged r).enter (s.entrant r)).appendAll ns)

theorem arrived_of_arriveRight {r : Request} {s t : State} (ok : protocolError r = none)
    (h : s.arriveRight r = .next t) : Arrived s r t := by
  cases hd : s.early r with
  | pass => rw [arriveRight_of_entering (.inl hd)] at h; cases h; exact .entered _ ok
  | hold e p b q => rw [arriveRight_of_entering (.inr ⟨e, p, b, q, hd⟩)] at h; cases h; exact .entered _ ok
  | fault e => rw [arriveRight_of_fault hd] at h; cases h; exact .answered _ (.inl rfl) ok
  | overlay e base limit offset =>
    rw [arriveRight_of_overlay hd] at h
    split at h
    · next hs => cases h; exact .answered _ (.inr ⟨_, _, _, _, hd, hs⟩) ok
    · cases h; exact .answered _ (.inl rfl) ok
    · cases h

theorem arrived_of_arrive {r : Request} {s t : State} (h : s.arrive r = .next t) : Arrived s r t := by
  unfold State.arrive at h
  split at h
  · next ho => cases h; exact .wrong ho
  · next ok => exact arrived_of_arriveRight ok h

/-- What a return to an ISSUED slot can do (R17, R18): the slot answers, or a hold is asked for. -/
inductive SlotReturned (s : State) (t : Tag) (x : Transaction) (ret : MemReturn) : State → Prop
  | answered (resp : BusResponse) (ns : List TraceNote) :
    SlotReturned s t x ret (((s.lateState x ret).answerSlot t x resp).appendAll ns)
  | asked (e : EntryIndex) (b : Nat) (p : Policy) (ns : List TraceNote) :
    SlotReturned s t x ret (((s.lateState x ret).holdResponse t x (returnedResponse x ret)
      (afterHold x (returnedResponse x ret) e b p)).appendAll ns)

theorem slotReturned (s : State) (t : Tag) (x : Transaction) (ret : MemReturn) :
    SlotReturned s t x ret (s.returnToSlot t x ret) := by
  unfold State.returnToSlot
  split
  · exact .answered _ _
  · exact .asked _ _ _ _
  · exact .answered _ _

/-- What a return can do (R16, R19, R109). -/
inductive Returned (s : State) (ret : MemReturn) : State → Prop
  /-- No access is outstanding. -/
  | none (h : s.issueList = []) : Returned s ret s
  /-- The oldest access is an injected record's. -/
  | injected {id : Byte} {m : MemRequest} {rest : List IssueEntry} (h : s.issueList = ⟨.injected id, m⟩ :: rest) :
    Returned s ret ((s.putIssue rest).returnToAccess s.headGrant id ret)
  /-- The oldest access is an orphan's. -/
  | orphan {t : Tag} {m : MemRequest} {rest : List IssueEntry} {x : Transaction}
    (h : s.issueList = ⟨.slot t, m⟩ :: rest) (hx : s.slot t = some x) (ho : x.stage = .orphan) :
    Returned s ret ((s.putIssue rest).freeSlot t)
  /-- The oldest access is an ISSUED slot's. -/
  | slot {t : Tag} {m : MemRequest} {rest : List IssueEntry} {x : Transaction} {u : State}
    (h : s.issueList = ⟨.slot t, m⟩ :: rest) (hx : s.slot t = some x) (hi : x.stage = .issued)
    (hu : SlotReturned (s.putIssue rest) t x (fitReturn s.headGrant x.request.size ret) u) : Returned s ret u
  /-- The oldest access names a slot that waits for no return, which no sound path has. -/
  | stray {t : Tag} {m : MemRequest} {rest : List IssueEntry} (h : s.issueList = ⟨.slot t, m⟩ :: rest)
    (hx : ∀ x, s.slot t = some x → x.stage ≠ .issued ∧ x.stage ≠ .orphan) : Returned s ret (s.putIssue rest)

theorem returned (s : State) (ret : MemReturn) : Returned s ret (s.takeReturn ret) := by
  unfold State.takeReturn
  split
  · next h => exact .none h
  · next e rest h =>
    obtain ⟨target, m⟩ := e
    unfold State.deliverReturn
    cases target with
    | injected id => exact .injected h
    | slot t =>
      change Returned s ret (match s.slot t with | none => _ | some x => _)
      rcases hx : s.slot t with _ | x
      · exact .stray h (by simp [hx])
      · dsimp only
        split
        · next hi => exact .slot h hx hi (slotReturned _ _ _ _)
        · next ho => exact .orphan h hx ho
        all_goals next hs => exact .stray h (by rintro y hy; rw [hx] at hy; cases hy; simp [hs])

/-! ### Every row keeps all but what it touches -/

theorem enter_holdFrame (x : Transaction) (s : State) : HoldFrame s (s.enter x) := by
  unfold State.enter
  split
  · exact putSlot_holdFrame _ _ s
  · exact carryOut_holdFrame _ _ s

theorem holdResponse_holdFrame (t : Tag) (x : Transaction) (r : BusResponse) (h : Hold) (s : State) :
    HoldFrame s (s.holdResponse t x r h) := by
  unfold State.holdResponse
  split
  · exact (askHold_holdFrame h s).trans (putSlot_holdFrame _ _ _)
  all_goals exact (askHold_holdFrame h s).trans (answerSlot_holdFrame _ _ _ _)

theorem judged_keeps (r : Request) (s : State) : KeepsAllBut [.port, .table, .latch] s (s.judged r) :=
  ((accepted_keeps s).mono (by decide)).trans ((evaluated_keeps false r r.data _).mono (by decide))

theorem arrived_keeps {s t : State} {r : Request} (h : Arrived s r t) :
    KeepsAllBut arrivalPieces s t := by
  have judged := (judged_keeps r s).mono (qs := arrivalPieces) (by decide)
  have hold : ∀ {u v}, HoldFrame u v → KeepsAllBut arrivalPieces u v := fun k => k.keeps.mono (by decide)
  have logged := fun ns u => hold (appendAll_logFrame ns u).toHoldFrame
  cases h with
  | wrong _ =>
    exact ((accepted_keeps s).mono (by decide)).trans ((hold (answerSlot_holdFrame _ _ _ _)).trans (logged _ _))
  | answered _ _ =>
    exact judged.trans (((putStore_keeps _ _).mono (by decide)).trans
      ((hold (answerSlot_holdFrame _ _ _ _)).trans (logged _ _)))
  | entered _ => exact judged.trans ((hold (enter_holdFrame _ _)).trans (logged _ _))

theorem granted_keeps {s t : State} (h : Granted s t) : KeepsAllBut (touches .memoryPortGrant) s t := by
  cases h with
  | none _ => exact .refl _ s
  | path _ _ _ _ => exact (grantPath_keeps _ _ s).mono (by decide)
  | injected _ _ _ => exact (grantInjected_keeps _ s).mono (by decide)

theorem lateState_keeps (x : Transaction) (ret : MemReturn) (s : State) :
    KeepsAllBut [.table, .latch] s (s.lateState x ret) := by
  unfold State.lateState
  split
  · exact evaluated_keeps _ _ _ _
  · exact .refl _ s

theorem slotReturned_keeps {s u : State} {t : Tag} {x : Transaction} {ret : MemReturn} (h : SlotReturned s t x ret u) :
    KeepsAllBut [.table, .latch, .slots, .holds, .log] s u := by
  have late := (lateState_keeps x ret s).mono (qs := [.table, .latch, .slots, .holds, .log]) (by decide)
  cases h with
  | answered resp ns =>
    exact late.trans (((answerSlot_holdFrame _ _ _ _).trans (appendAll_logFrame ns _).toHoldFrame).keeps.mono (by decide))
  | asked e b p ns =>
    exact late.trans (((holdResponse_holdFrame _ _ _ _ _).trans (appendAll_logFrame ns _).toHoldFrame).keeps.mono (by decide))

theorem returned_keeps {s t : State} {ret : MemReturn} (h : Returned s ret t) :
    KeepsAllBut returnPieces s t := by
  have drop := fun rest => (putIssue_keeps rest s).mono (qs := returnPieces) (by decide)
  cases h with
  | none _ => exact .refl _ s
  | injected _ => exact (drop _).trans ((updateAccess_keeps _ _ _).mono (by decide))
  | orphan _ _ _ => exact (drop _).trans ((freeSlot_keeps _ _).mono (by decide))
  | slot _ _ _ hu => exact (drop _).trans ((slotReturned_keeps hu).mono (by decide))
  | stray _ _ => exact drop _

/-! The tick, the lines and the resets. -/

theorem countTick_keeps (b : Bool) (s : State) : KeepsAllBut [.clock, .pulse, .gap] s (s.countTick b) := by
  intro p; cases p <;> simp [Piece.Same]

theorem stepBudgets_keeps (s : State) : KeepsAllBut [.holds] s s.stepBudgets := by
  intro p; cases p <;> simp [Piece.Same]

theorem endPulse_keeps (s : State) : KeepsAllBut [.pulse] s s.endPulse := by
  intro p; cases p <;> simp [Piece.Same]

theorem toReceiver_keeps (r : Receiver) (s : State) : KeepsAllBut [] s (s.toReceiver r) := by
  intro p; cases p <;> simp [Piece.Same]

theorem endResponse_keeps (s : State) : KeepsAllBut [] s s.endResponse := by
  intro p; cases p <;> simp [Piece.Same]

theorem abortFrame_keeps (s : State) : KeepsAllBut [] s s.abortFrame := by
  unfold State.abortFrame
  split
  · exact toReceiver_keeps _ s
  · exact .refl _ s

theorem abandonResponse_keeps (s : State) : KeepsAllBut [] s s.abandonResponse := by
  unfold State.abandonResponse
  split
  · exact endResponse_keeps s
  · exact .refl _ s

theorem abandonRound_keeps (s : State) : KeepsAllBut [] s s.abandonRound := by
  unfold State.abandonRound
  split
  · exact toReceiver_keeps _ s
  · exact .refl _ s

/-- A requester reset sends records and clears the path (R23, R71, R144). -/
theorem requesterReset_keeps (s : State) : KeepsAllBut [.slots, .holds, .log] s s.requesterReset := by
  refine ((appendAll_logFrame (systemNote :: s.holds.map fun h => h.endNote (some h.id) .dropped) s).keeps.mono
    (qs := [.slots, .holds, .log]) (by decide)).trans ?_
  intro p; cases p <;> simp [Piece.Same, State.requesterReset]

theorem putLine_keeps (l : Bool) (s : State) : KeepsAllBut [.line] s { s with rqrstIn := l } := by
  intro p; cases p <;> simp [Piece.Same]

theorem putPulse_keeps (n : Option Nat) (s : State) : KeepsAllBut [.pulse] s { s with pulse := n } := by
  intro p; cases p <;> simp [Piece.Same]

theorem assertRqrstIn_keeps (s : State) : KeepsAllBut (touches .rqrstInAsserted) s s.assertRqrstIn := by
  unfold State.assertRqrstIn
  split
  · exact .refl _ s
  · exact ((requesterReset_keeps s).mono (by decide)).trans ((putLine_keeps true _).mono (by decide))

theorem startPulse_keeps (s : State) : KeepsAllBut (touches .resetRequester) s s.startPulse := by
  unfold State.startPulse
  split
  · exact (putPulse_keeps _ s).mono (by decide)
  · exact ((requesterReset_keeps s).mono (by decide)).trans ((putPulse_keeps _ _).mono (by decide))

theorem inReset_keeps (por l : Bool) (s : State) :
    KeepsAllBut powerPieces s (s.inReset por l) := by
  intro p; cases p <;> simp [Piece.Same, State.inReset, State.powerOn, powerPieces]

/-! The link. -/

theorem startFrame_keeps (s : State) : KeepsAllBut [.gap] s s.startFrame := by
  unfold State.startFrame
  intro p
  cases p <;> split <;> simp [Piece.Same]

theorem act_keeps (f : Frame) (s : State) : KeepsAllBut [.gap] s (s.act f) := by
  unfold State.act State.readBack
  intro p
  cases p <;> split <;> simp [Piece.Same]

theorem countCheck_keeps (f : Frame) (s : State) : KeepsAllBut [.gap, .checks] s { s.countCheck f with gap := 0 } := by
  intro p; cases p <;> simp [Piece.Same]

theorem checkTaken_keeps (f : Frame) (s : State) : KeepsAllBut [.gap, .checks] s (s.checkTaken f) := by
  unfold State.checkTaken
  split
  · refine (countCheck_keeps f s).trans ?_
    dsimp only
    split
    · exact (toReceiver_keeps _ _).mono (by decide)
    · exact (act_keeps f _).mono (by decide)
  · exact .refl _ s

theorem actDeferred_keeps (s : State) : KeepsAllBut [.gap] s s.actDeferred := by
  unfold State.actDeferred
  split
  · split
    · exact .refl _ s
    · exact act_keeps _ s
  all_goals exact .refl _ s

theorem endBatch_keeps (s : State) : KeepsAllBut [.gap] s s.endBatch := by
  unfold State.endBatch State.endAddressed State.endGroup
  intro p
  cases p <;> (repeat' split) <;> simp [Piece.Same]

theorem startRound_keeps (s : State) : KeepsAllBut [.gap] s s.startRound := by
  unfold State.startRound
  intro p
  cases p <;> (repeat' split) <;> simp [Piece.Same]

theorem completeEnum_keeps (s : State) : KeepsAllBut [] s s.completeEnum := by
  unfold State.completeEnum
  intro p
  cases p <;> split <;> simp [Piece.Same]

theorem completePoll_keeps (s : State) : KeepsAllBut [] s s.completePoll := by
  unfold State.completePoll
  intro p
  cases p <;> split <;> simp [Piece.Same]

/-! CLEAR-UNIT. -/

theorem answered_keeps (b : Batch) (c : Command) (st : CmdStatus) (res : List Byte) (s : State) :
    KeepsAllBut [] s (s.answered b c st res) := by
  intro p; cases p <;> simp [Piece.Same, State.answered]

theorem answer_keeps (c : Command) (st : CmdStatus) (res : List Byte) (s : State) :
    KeepsAllBut [] s (s.answer c st res) := by
  intro p; cases p <;> simp [Piece.Same]

theorem takeCommand_keeps {ps : List Piece} {run : State → State} {s : State} (c : Command)
    (h : KeepsAllBut ps s (run s)) : KeepsAllBut ps s (s.takeCommand c run) := by
  rcases takeCommand_cases c run s with e | ⟨b, st, -, -, e⟩ | ⟨b, -, -, -, -, e⟩
  · rw [e]; exact .refl _ s
  · rw [e]; exact (answered_keeps b c st [] s).mono (List.nil_subset ps)
  · rw [e]; exact h

theorem clearingEffect_keeps {ps : List Piece} {f : State → State} {s : State} (c : ClearStep)
    (h : KeepsAllBut ps s (f s)) : KeepsAllBut ps s (clearingEffect c f s) := by
  unfold clearingEffect
  split
  · exact h
  · exact .refl _ s

theorem setClearing_keeps (c : Option ClearStep) (s : State) : KeepsAllBut [] s (s.setClearing c) := by
  intro p; cases p <;> simp [Piece.Same]

theorem clearTrace_keeps (s : State) : KeepsAllBut [.log, .trace] s s.clearTrace := by
  intro p; cases p <;> simp [Piece.Same]

theorem clearTable_keeps (s : State) : KeepsAllBut [.table] s s.clearTable := by
  intro p; cases p <;> simp [Piece.Same]

theorem putLatch_keeps (l : Bool) (s : State) : KeepsAllBut [.latch] s { s with eventLatch := l } := by
  intro p; cases p <;> simp [Piece.Same]

theorem clearHolds_keeps (s : State) : KeepsAllBut (touches .clearUnitHolds) s s.clearHolds := by
  have ended := (clearHolds_foldl_holdFrame s.holds s).keeps
  unfold State.clearHolds
  generalize s.holds.foldl (State.endHold false true false .cleared) s = u at ended ⊢
  have emptied : KeepsAllBut [.holds, .mode] u { u with refusedHolds := 0, noHold := false } := by
    intro p; cases p <;> simp [Piece.Same]
  exact (ended.mono (by decide)).trans (emptied.mono (by decide))

/-- A due step keeps all but what its row touches. -/
theorem dueEffect_keeps {c : Instr} {f : State → State} (hf : dueEffect c = some f) (s : State) :
    KeepsAllBut (touches c) s (f s) := by
  cases c <;> cases hf
  case budgetStep => exact stepBudgets_keeps s
  case holdExpiry => exact (expireNext_holdFrame s).keeps
  case pulseEnd => exact endPulse_keeps s
  case gapAbort => exact abortFrame_keeps s
  case responseGapAbandon => exact abandonResponse_keeps s
  case roundGapAbandon => exact abandonRound_keeps s

/-- An event keeps all but what its row touches. -/
theorem eventEffect_keeps {c : Instr} {f : State → State} (hf : eventEffect c = some f) (s : State) :
    KeepsAllBut (touches c) s (f s) := by
  cases c <;> cases hf
  case responseTaken => exact takeResponse_keeps s
  case memoryPortGrant => exact granted_keeps (granted s)
  case memoryReturn r => exact returned_keeps (returned s r)
  case tick b => exact countTick_keeps b s
  case rqrstInAsserted => exact assertRqrstIn_keeps s
  case rqrstInDeasserted => exact putLine_keeps false s
  case frameStart => exact startFrame_keeps s
  case overlengthFrame n =>
    unfold State.overlength
    split
    · exact toReceiver_keeps _ s
    · exact .refl _ s
  case deferredFrameAction => exact actDeferred_keeps s
  case batchEnd => exact endBatch_keeps s
  case responseSent =>
    unfold State.responseDone
    split
    · exact endResponse_keeps s
    · exact .refl _ s
  case roundStart => exact startRound_keeps s
  case enumComplete => exact completeEnum_keeps s
  case pollComplete => exact completePoll_keeps s
  case arbitrationLoss n =>
    unfold State.loseRound
    split
    · exact toReceiver_keeps _ s
    · exact .refl _ s
  case clearUnit =>
    exact takeCommand_keeps _ ((clearTrace_keeps s).trans ((setClearing_keeps _ _).mono (List.nil_subset _)))
  case clearUnitHolds =>
    exact clearingEffect_keeps _ ((clearHolds_keeps s).trans ((setClearing_keeps _ _).mono (List.nil_subset _)))
  case clearUnitMatchTable =>
    exact clearingEffect_keeps _ ((clearTable_keeps s).trans ((setClearing_keeps _ _).mono (List.nil_subset _)))
  case clearUnitOverlay =>
    exact clearingEffect_keeps _ ((putStore_keeps [] s).trans ((setClearing_keeps _ _).mono (List.nil_subset _)))
  case clearUnitEventLatch =>
    exact clearingEffect_keeps _ ((putLatch_keeps false s).trans ((answer_keeps _ _ _ _).mono (List.nil_subset _)))
  all_goals exact checkTaken_keeps _ s

/-! The commands. -/

theorem withEntry_keeps {ps : List Piece} {f : EntryIndex → State → Reply} (index : Byte) (s : State)
    (h : ∀ i, KeepsAllBut ps s (f i s).state) : KeepsAllBut ps s (withEntry index f s).state := by
  unfold withEntry
  split
  · exact .refl _ s
  · exact h _

theorem withHold_keeps {ps : List Piece} {f : Hold → State → Reply} (id : Byte) (s : State)
    (h : ∀ g, KeepsAllBut ps s (f g s).state) : KeepsAllBut ps s (withHold id f s).state := by
  unfold withHold
  split
  · exact .refl _ s
  · exact h _

theorem putTable_keeps (tb : Vector MatchEntry 16) (s : State) : KeepsAllBut [.table] s { s with table := tb } := by
  intro p; cases p <;> simp [Piece.Same]

theorem writeEntryAt_keeps (image : List Byte) (i : EntryIndex) (s : State) :
    KeepsAllBut [.table] s (writeEntryAt image i s).state := by
  unfold writeEntryAt
  split
  · exact .refl _ s
  · split
    · exact putTable_keeps _ s
    · exact .refl _ s

theorem enableEntryAt_keeps (i : EntryIndex) (s : State) : KeepsAllBut [.table] s (enableEntryAt i s).state := by
  unfold enableEntryAt
  split
  · exact .refl _ s
  · split
    · exact putTable_keeps _ s
    · exact .refl _ s

theorem writeOverlayBody_keeps (a n : Byte) (d : List Byte) (s : State) :
    KeepsAllBut [.store] s (writeOverlayBody a n d s).state := by
  unfold writeOverlayBody
  split
  · exact putStore_keeps _ s
  · exact .refl _ s

theorem ackTraceBody_keeps (n : Half) (s : State) : KeepsAllBut [.log] s (ackTraceBody n s).state := by
  unfold ackTraceBody
  split
  · intro p; cases p <;> simp [Piece.Same, done]
  · exact .refl _ s

theorem traceControlBody_keeps (m : Byte) (n : Half) (f : Byte) (s : State) :
    KeepsAllBut [.log, .trace] s (traceControlBody m n f s).state := by
  unfold traceControlBody
  split
  · exact .refl _ s
  · split
    · intro p; cases p <;> simp [Piece.Same, done]
    · exact .refl _ s

theorem updateHold_keeps (h : Hold) (s : State) : KeepsAllBut [.holds] s (s.updateHold h) := by
  intro p; cases p <;> simp [Piece.Same]

theorem amendSlot_keeps (t : Tag) (d : List Byte) (s : State) : KeepsAllBut [.slots] s (s.amendSlot t d) := by
  unfold State.amendSlot
  split
  · exact .refl _ s
  · intro p; cases p <;> simp [Piece.Same]

theorem amendHold_keeps (d : List Byte) (h : Hold) (s : State) : KeepsAllBut [.slots, .holds] s (s.amendHold d h) := by
  unfold State.amendHold
  split
  · exact ((updateHold_keeps _ s).mono (by decide)).trans ((amendSlot_keeps _ _ _).mono (by decide))
  · exact (updateHold_keeps _ s).mono (by decide)

theorem amendBody_keeps (id n : Byte) (d : List Byte) (s : State) :
    KeepsAllBut [.slots, .holds] s (amendBody id n d s).state := by
  unfold amendBody
  split
  · refine withHold_keeps id s fun h => ?_
    unfold amendRecord
    split
    · exact .refl _ s
    · split
      · exact .refl _ s
      · exact amendHold_keeps d h s
  · exact .refl _ s

theorem extendBody_keeps (id : Byte) (u : Half) (s : State) : KeepsAllBut [.holds] s (extendBody id u s).state := by
  unfold extendBody
  split
  · refine withHold_keeps id s fun h => ?_
    unfold extendRecord
    split
    · exact .refl _ s
    · exact updateHold_keeps _ s
  · exact .refl _ s

theorem setModeBody_keeps (m : Byte) (s : State) : KeepsAllBut [.mode] s (setModeBody m s).state := by
  unfold setModeBody
  split
  · exact .refl _ s
  · intro p; cases p <;> simp [Piece.Same, done]

theorem injectBody_keeps (k : AccessKind) (a : Word) (z : Byte) (d : List Byte) (s : State) :
    KeepsAllBut [.injected, .accessId] s (injectBody k a z d s).state := by
  unfold injectBody
  split
  · exact .refl _ s
  · repeat' split
    · exact .refl _ s
    · exact .refl _ s
    · exact .refl _ s
    · intro p; cases p <;> simp [Piece.Same]

theorem accessResultBody_keeps (id : Byte) (s : State) : KeepsAllBut [.injected] s (accessResultBody id s).state := by
  unfold accessResultBody
  split
  · exact .refl _ s
  · split
    · exact .refl _ s
    · exact .refl _ s
    all_goals intro p; cases p <;> simp [Piece.Same]

theorem setGroupBody_keeps (g : Byte) (s : State) : KeepsAllBut [] s (setGroupBody g s).state := by
  unfold setGroupBody
  split
  · exact .refl _ s
  · intro p; cases p <;> simp [Piece.Same, done]

theorem attentionControlBody_keeps (e : Byte) (s : State) : KeepsAllBut [.enable] s (attentionControlBody e s).state := by
  unfold attentionControlBody
  split
  · exact .refl _ s
  · intro p; cases p <;> simp [Piece.Same, done]

/-- A command keeps all but what its row touches. -/
theorem commandBody_keeps {c : Instr} {k : Command} {body : State → Reply} (h : commandBody c = some (k, body)) (s : State) :
    KeepsAllBut (touches c) s (body s).state := by
  cases c <;> cases h
  case readEntry i => exact withEntry_keeps i s fun _ => .refl _ s
  case writeEntry i im => exact withEntry_keeps i s fun j => writeEntryAt_keeps im j s
  case enableEntry i => exact withEntry_keeps i s fun j => enableEntryAt_keeps j s
  case disableEntry i => exact withEntry_keeps i s fun _ => putTable_keeps _ s
  case armEntry i => exact withEntry_keeps i s fun _ => putTable_keeps _ s
  case disarmEntry i => exact withEntry_keeps i s fun _ => putTable_keeps _ s
  case clearCount i => exact withEntry_keeps i s fun _ => putTable_keeps _ s
  case readOverlay a n => unfold readOverlayBody; split <;> exact .refl _ s
  case writeOverlay a n d => exact writeOverlayBody_keeps a n d s
  case readTrace n => unfold readTraceBody; split <;> exact .refl _ s
  case ackTrace n => exact ackTraceBody_keeps n s
  case traceControl m n f => exact traceControlBody_keeps m n f s
  case inspect id => exact withHold_keeps id s fun _ => .refl _ s
  case release id => exact withHold_keeps id s fun h => (endHold_holdFrame _ _ _ _ s h).keeps
  case amend id n d => exact amendBody_keeps id n d s
  case fail id => exact withHold_keeps id s fun h => (endHold_holdFrame _ _ _ _ s h).keeps
  case extend id u => exact extendBody_keeps id u s
  case setMode m => exact setModeBody_keeps m s
  case peek a z => exact injectBody_keeps .peek a z [] s
  case poke a z d => exact injectBody_keeps .poke a z d s
  case accessResult id => exact accessResultBody_keeps id s
  case eventClear => exact putLatch_keeps false s
  case resetRequester => exact startPulse_keeps s
  case setGroup g => exact setGroupBody_keeps g s
  case forget => intro p; cases p <;> simp [Piece.Same, forgetBody, done]
  case attentionControl e => exact attentionControlBody_keeps e s
  all_goals exact .refl _ s

theorem runBody_keeps {ps : List Piece} {body : State → Reply} {s : State} (k : Command)
    (h : KeepsAllBut ps s (body s).state) : KeepsAllBut ps s (s.runBody k body) :=
  h.trans ((answer_keeps k _ _ _).mono (List.nil_subset ps))

theorem settle_keeps (s : State) : KeepsAllBut duePieces s s.settle := (settle_settleFrame s).keeps

/-- Whatever a row answers, it keeps all but what it touches and what was due. -/
theorem exec_keeps {c : Instr} {s t : State} (h : exec c s = .next t) : KeepsAllBut (touches c ++ duePieces) s t := by
  have settled := (settle_keeps s).mono (List.subset_append_right (touches c) duePieces)
  have own : ∀ {u v}, KeepsAllBut (touches c) u v → KeepsAllBut (touches c ++ duePieces) u v :=
    fun k => k.mono (List.subset_append_left _ _)
  cases rowStep_of_exec h with
  | idle => exact .refl _ s
  | leftInReset r => exact own ((leavePresented_keeps r s).mono (qs := arrivalPieces) (by decide))
  | left r => exact settled.trans (own ((leavePresented_keeps r _).mono (qs := arrivalPieces) (by decide)))
  | arrived _ ht => exact settled.trans (own (arrived_keeps (arrived_of_arrive ht)))
  | powerDown => exact own (inReset_keeps true s.rqrstIn s)
  | powerUp l => exact own (inReset_keeps false l s)
  | due hf => exact own (dueEffect_keeps hf s)
  | event hf => exact settled.trans (own (eventEffect_keeps hf _))
  | command hk => exact settled.trans (own (takeCommand_keeps _ (runBody_keeps _ (commandBody_keeps hk _))))

/-- A piece that a row does not touch, and that nothing due changes, is the same after the row. -/
theorem exec_same {c : Instr} {s t : State} (h : exec c s = .next t) {p : Piece} (hp : p ∉ touches c ++ duePieces) :
    p.Same s t := (exec_keeps h).same hp

end Sys2Proof.Machine
end

-- ==== The frame of every row ====
section
/-! O4: the fields that the statement names, each read off the list of pieces that a row touches. -/

namespace Sys2Proof.Machine

/-- A piece that a row does not touch is the same after it; the list is looked up by computation. -/
theorem exec_same_of_contains {c : Instr} {s t : State} (h : exec c s = .next t) (p : Piece)
    (hp : (touches c ++ duePieces).contains p = false) : p.Same s t :=
  exec_same h fun hm => Bool.false_ne_true (hp.symm.trans (List.contains_iff_mem.2 hm))

/-- The rows that put every block at its power-on values (R180, R181). -/
def isPowerRow : Instr → Bool
  | .porNAsserted | .porNReleased _ => true
  | _ => false

theorem isPowerRow_eq_false {c : Instr} (ha : c ≠ .porNAsserted) (hr : ∀ l, c ≠ .porNReleased l) : isPowerRow c = false := by
  cases c with
  | porNAsserted => exact absurd rfl ha
  | porNReleased l => exact absurd rfl (hr l)
  | _ => rfl

/-- The same of a row that is not one of the POR_N rows. -/
theorem exec_same_of_live {c : Instr} {s t : State} (h : exec c s = .next t) (hc : isPowerRow c = false) (p : Piece)
    (hp : (isPowerRow c || !(touches c ++ duePieces).contains p) = true) : p.Same s t :=
  exec_same_of_contains h p (by simpa [hc] using hp)

/-- Settles O4: `exec_same` at each piece; the rows that touch the piece are the ones that the clause names. -/
theorem onlyNamedRowsChangeEachField : Obligations.OnlyNamedRowsChangeEachField := by
  refine ⟨fun c s t h => ?_, fun c s t h ha hr => ?_⟩
  · have identity := exec_same_of_contains h .identity (by cases c <;> rfl)
    simpa [Piece.Same] using identity
  have live := exec_same_of_live h (isPowerRow_eq_false ha hr)
  refine ⟨live .power (by cases c <;> rfl), fun hn => ?_, fun h1 h2 => live .line ?_, fun h1 => ?_,
    fun h1 h2 h3 => live .store ?_, fun h1 h2 h3 h4 h5 h6 h7 h8 h9 => live .table ?_, fun h1 h2 h3 h4 => live .latch ?_,
    fun h1 => ?_, fun h1 h2 => live .issue ?_, fun h1 h2 h3 h4 h5 => live .injected ?_, fun h1 h2 => live .accessId ?_,
    fun h1 h2 => live .mode ?_, fun h1 h2 => ?_, fun h1 => live .enable ?_, fun h1 h2 h3 h4 h5 h6 h7 => live .checks ?_⟩
  · have clock := live .clock (by
      cases c with
      | tick n => exact absurd rfl (hn n)
      | _ => rfl)
    simpa [Piece.Same] using clock
  · cases c with
    | rqrstInAsserted => exact absurd rfl h1
    | rqrstInDeasserted => exact absurd rfl h2
    | _ => rfl
  · have port := live .port (by
      cases c with
      | requestArrival r => exact absurd rfl (h1 r)
      | _ => rfl)
    simpa [Piece.Same] using port
  · cases c with
    | requestArrival r => exact absurd rfl (h1 r)
    | writeOverlay a n d => exact absurd rfl (h2 a n d)
    | clearUnitOverlay => exact absurd rfl h3
    | _ => rfl
  · cases c with
    | requestArrival r => exact absurd rfl (h1 r)
    | memoryReturn r => exact absurd rfl (h2 r)
    | writeEntry i im => exact absurd rfl (h3 i im)
    | enableEntry i => exact absurd rfl (h4 i)
    | disableEntry i => exact absurd rfl (h5 i)
    | armEntry i => exact absurd rfl (h6 i)
    | disarmEntry i => exact absurd rfl (h7 i)
    | clearCount i => exact absurd rfl (h8 i)
    | clearUnitMatchTable => exact absurd rfl h9
    | _ => rfl
  · cases c with
    | requestArrival r => exact absurd rfl (h1 r)
    | memoryReturn r => exact absurd rfl (h2 r)
    | eventClear => exact absurd rfl h3
    | clearUnitEventLatch => exact absurd rfl h4
    | _ => rfl
  · have grants := live .grants (by
      cases c with
      | memoryPortGrant => exact absurd rfl h1
      | _ => rfl)
    simpa [Piece.Same] using grants
  · cases c with
    | memoryPortGrant => exact absurd rfl h1
    | memoryReturn r => exact absurd rfl (h2 r)
    | _ => rfl
  · cases c with
    | memoryPortGrant => exact absurd rfl h1
    | memoryReturn r => exact absurd rfl (h2 r)
    | peek a z => exact absurd rfl (h3 a z)
    | poke a z d => exact absurd rfl (h4 a z d)
    | accessResult i => exact absurd rfl (h5 i)
    | _ => rfl
  · cases c with
    | peek a z => exact absurd rfl (h1 a z)
    | poke a z d => exact absurd rfl (h2 a z d)
    | _ => rfl
  · cases c with
    | setMode m => exact absurd rfl (h1 m)
    | clearUnitHolds => exact absurd rfl h2
    | _ => rfl
  · have trace := live .trace (by
      cases c with
      | traceControl m n f => exact absurd rfl (h1 m n f)
      | clearUnit => exact absurd rfl h2
      | _ => rfl)
    simpa [Piece.Same] using trace
  · cases c with
    | attentionControl e => exact absurd rfl (h1 e)
    | _ => rfl
  · cases c with
    | badCheckFrame f => exact absurd rfl (h1 f)
    | commandFrame f => exact absurd rfl (h2 f)
    | groupCommandFrame f => exact absurd rfl (h3 f)
    | readbackFrame f => exact absurd rfl (h4 f)
    | enumFrame f => exact absurd rfl (h5 f)
    | pollFrame f => exact absurd rfl (h6 f)
    | frameNotActedOn f => exact absurd rfl (h7 f)
    | _ => rfl

end Sys2Proof.Machine
end

-- ==== Invariants of every step ====
section
/-! How an invariant of every step is proved, said once: `Kept ps P` asks for the rows that touch the pieces `ps` alone, on
which `P` depends, and `Kept.step` gives every step. -/

namespace Sys2Proof.Machine

/-- The property depends on these pieces alone. -/
def DependsOn (ps : List Piece) (P : State → Prop) : Prop := ∀ s t, (∀ p ∈ ps, p.Same s t) → P s → P t

/-- The row touches one of these pieces. -/
def meets (ps : List Piece) (c : Instr) : Bool := ps.any fun p => (touches c).contains p

theorem DependsOn.of_keeps {ps qs : List Piece} {P : State → Prop} (h : DependsOn ps P) {s t : State}
    (k : KeepsAllBut qs s t) (apart : ∀ p ∈ ps, p ∉ qs) : P s → P t :=
  h s t fun p hp => k.same (apart p hp)

theorem DependsOn.of_untouched {ps : List Piece} {P : State → Prop} (h : DependsOn ps P) {c : Instr} {s t : State}
    (k : KeepsAllBut (touches c) s t) (hc : meets ps c = false) : P s → P t := by
  refine h.of_keeps k fun p hp hm => ?_
  simp only [meets, List.any_eq_false, List.contains_iff_mem] at hc
  exact hc p hp hm

/-- The property is kept by every row that touches the pieces it depends on. -/
structure Kept (ps : List Piece) (P : State → Prop) : Prop where
  depends : DependsOn ps P
  queue : Piece.identity ∉ ps
  inReset : ∀ por l s, P (State.inReset por l s)
  present : ∀ r s, P s → P (State.leavePresented r s)
  arrive : ∀ r s t, P s → s.slot r.tag = none → Arrived s r t → P t
  due : ∀ c f, dueEffect c = some f → meets ps c = true → ∀ s, P s → P (f s)
  event : ∀ c f, eventEffect c = some f → meets ps c = true → ∀ s, P s → P (f s)
  command : ∀ c k body, commandBody c = some (k, body) → meets ps c = true → ∀ s, P s → P (body s).state

namespace Kept

variable {ps : List Piece} {P : State → Prop}

theorem dueEffect (K : Kept ps P) {c : Instr} {f : State → State} (hf : Machine.dueEffect c = some f) {s : State} (h : P s) :
    P (f s) := by
  cases hm : meets ps c with
  | true => exact K.due c f hf hm s h
  | false => exact K.depends.of_untouched (dueEffect_keeps hf s) hm h

theorem expireUpTo (K : Kept ps P) (n : Nat) {s : State} (h : P s) : P (s.expireUpTo n) := by
  induction n generalizing s with
  | zero => exact h
  | succ n ih =>
    unfold State.expireUpTo
    split
    · exact h
    · exact ih (K.dueEffect (c := .holdExpiry) rfl h)

/-- Completing what is due keeps the property. -/
theorem settle (K : Kept ps P) {s : State} (h : P s) : P s.settle :=
  K.dueEffect (c := .roundGapAbandon) rfl <| K.dueEffect (c := .responseGapAbandon) rfl <|
    K.dueEffect (c := .gapAbort) rfl <| K.expireUpTo _ <| K.dueEffect (c := .budgetStep) rfl <|
      K.dueEffect (c := .pulseEnd) rfl h

theorem answered (K : Kept ps P) (b : Batch) (k : Command) (st : CmdStatus) (res : List Byte) {s : State} (h : P s) :
    P (s.answered b k st res) :=
  K.depends.of_keeps (answered_keeps b k st res s) (by simp) h

theorem eventEffect (K : Kept ps P) {c : Instr} {f : State → State} (hf : Machine.eventEffect c = some f) {s : State}
    (h : P s) : P (f s) := by
  cases hm : meets ps c with
  | true => exact K.event c f hf hm s h
  | false => exact K.depends.of_untouched (eventEffect_keeps hf s) hm h

theorem commandBody (K : Kept ps P) {c : Instr} {k : Command} {body : State → Reply}
    (hk : Machine.commandBody c = some (k, body)) {s : State} (h : P s) : P (body s).state := by
  cases hm : meets ps c with
  | true => exact K.command c k body hk hm s h
  | false => exact K.depends.of_untouched (commandBody_keeps hk s) hm h

theorem takeCommand (K : Kept ps P) {c : Instr} {k : Command} {body : State → Reply}
    (hk : Machine.commandBody c = some (k, body)) {s : State} (h : P s) : P (s.takeCommand k (State.runBody k body)) := by
  rcases takeCommand_cases k (State.runBody k body) s with e | ⟨b, st, -, -, e⟩ | ⟨b, -, -, -, -, e⟩
  · rw [e]; exact h
  · rw [e]; exact K.answered b k st [] h
  · rw [e]; exact K.depends.of_keeps (answer_keeps k _ _ _) (by simp) (K.commandBody hk h)

theorem exec (K : Kept ps P) {c : Instr} {s t : State} (h : P s) (ht : exec c s = .next t) : P t := by
  cases rowStep_of_exec ht with
  | idle => exact h
  | leftInReset r => exact K.present r s h
  | left r => exact K.present r _ (K.settle h)
  | arrived free ha => exact K.arrive _ _ _ (K.settle h) free (arrived_of_arrive ha)
  | powerDown => exact K.inReset _ _ s
  | powerUp l => exact K.inReset _ _ s
  | due hf => exact K.dueEffect hf h
  | event hf => exact K.eventEffect hf (K.settle h)
  | command hk => exact K.takeCommand hk (K.settle h)

/-- Every step keeps the property. -/
theorem step (K : Kept ps P) {s t : State} (h : P s) (ht : step s = .next t) : P t := by
  unfold Sys2Proof.Machine.step at ht
  split at ht
  · cases ht; exact h
  · next i rest _ =>
    refine K.exec (s := { s with pending := rest }) ?_ ht
    refine K.depends s _ (fun p hp => ?_) h
    cases p
    case identity => exact absurd hp K.queue
    all_goals rfl

end Kept

end Sys2Proof.Machine
end

-- ==== Rooms and counts ====
section
/-! O6: every list stays within its room and every count within its range. `Piece.Fits` is the part of `State.Bounded` that
looks at one piece, so an operation has to show the bounds of the pieces it touches alone. -/

namespace Sys2Proof.Machine

/-- The bounds of one piece (R13, R15, R49, R56, R67, R85, R92, R98, R102, R103, R116, R125, R178). -/
def Piece.Fits (s : State) : Piece → Prop
  | .holds => s.holds.length ≤ 4 ∧ s.refusedHolds ≤ 65535
  | .clock => s.divider ≤ 9
  | .log => s.log.length ≤ 256 ∧ s.lost ≤ 65535
  | .trace => s.threshold ≤ 256
  | .injected => s.injected.length ≤ 2
  | .accessId => s.nextAccessId ≠ 0
  | .issue => s.issueList.length ≤ 8
  | .grants => s.fairness ≤ 4
  | .checks => s.checkErrors ≤ 255
  | .pulse => ∀ n, s.pulse = some n → n ≤ 100
  | .gap => s.gap ≤ gapLimit + 1
  | _ => True

/-- The pieces that have bounds. -/
def boundedPieces : List Piece :=
  [.holds, .clock, .log, .trace, .injected, .accessId, .issue, .grants, .checks, .pulse, .gap]

theorem bounded_iff (s : State) : s.Bounded ↔ ∀ p : Piece, p.Fits s := by
  constructor
  · rintro ⟨holds, refused, divider, log, lost, threshold, injected, accessId, issue, fairness, checks, pulse, gap⟩ p
    cases p <;> trivial
  · intro h
    exact ⟨(h .holds).1, (h .holds).2, h .clock, (h .log).1, (h .log).2, h .trace, h .injected, h .accessId, h .issue,
      h .grants, h .checks, h .pulse, h .gap⟩

theorem Piece.Fits.of_same {s t : State} {p : Piece} (h : p.Same s t) (k : p.Fits s) : p.Fits t := by
  cases p <;> simp_all [Piece.Same, Piece.Fits]

/-- An operation that keeps the bounds of the pieces it touches keeps all bounds. -/
theorem State.Bounded.of_keeps {ps : List Piece} {s t : State} (h : s.Bounded) (k : KeepsAllBut ps s t)
    (fits : ∀ p ∈ ps, p.Fits t) : t.Bounded := by
  refine (bounded_iff t).2 fun p => ?_
  rcases k p with hp | hp
  · exact fits p hp
  · exact ((bounded_iff s).1 h p).of_same hp

theorem bounded_dependsOn : DependsOn boundedPieces State.Bounded := by
  intro s t same h
  refine (bounded_iff t).2 fun p => ?_
  by_cases hp : p ∈ boundedPieces
  · exact ((bounded_iff s).1 h p).of_same (same p hp)
  · cases p <;> trivial

/-! ### Records, posts and slots -/

theorem append_fits {s : State} (h : s.Bounded) (n : TraceNote) : Piece.log.Fits (s.append n) := by
  have hlog := h.log
  have hlost := h.lost
  unfold State.append Piece.Fits
  refine ⟨?_, ?_⟩ <;> dsimp only
  · split
    · exact hlog
    · split
      · simp only [List.length_append, List.length_drop, List.length_singleton]
        omega
      · next hf =>
        have : s.log.length < 256 := by simpa [State.logFull] using hf
        simp only [List.length_append, List.length_singleton]
        omega
  · split <;> omega

theorem append_bounded {s : State} (h : s.Bounded) (n : TraceNote) : (s.append n).Bounded :=
  h.of_keeps (append_logFrame s n).keeps (by simpa using append_fits h n)

theorem appendAll_bounded {s : State} (h : s.Bounded) (ns : List TraceNote) : (s.appendAll ns).Bounded := by
  induction ns generalizing s with
  | nil => exact h
  | cons n ns ih => exact ih (append_bounded h n)

/-- An operation that touches no bounded piece. -/
theorem State.Bounded.of_unbounded {ps : List Piece} {s t : State} (h : s.Bounded) (k : KeepsAllBut ps s t)
    (apart : ∀ p ∈ boundedPieces, p ∉ ps) : t.Bounded := bounded_dependsOn.of_keeps k apart h

theorem postIf_bounded {s : State} (h : s.Bounded) (c : Bool) (f : Flag) (d : Byte) : (s.postIf c f d).Bounded := by
  have keeps : KeepsAllBut [] s (s.postIf c f d) := by intro p; cases p <;> simp [Piece.Same]
  exact h.of_unbounded keeps (by decide)

theorem putSlot_keeps (t : Tag) (x : Transaction) (s : State) : KeepsAllBut [.slots] s (s.putSlot t x) := by
  intro p; cases p <;> simp [Piece.Same]

theorem answerSlot_keeps (t : Tag) (x : Transaction) (r : BusResponse) (s : State) :
    KeepsAllBut [.slots] s (s.answerSlot t x r) := by
  intro p; cases p <;> simp [Piece.Same]

theorem putSlot_bounded {s : State} (h : s.Bounded) (t : Tag) (x : Transaction) : (s.putSlot t x).Bounded :=
  h.of_unbounded (putSlot_keeps t x s) (by decide)

theorem answerSlot_bounded {s : State} (h : s.Bounded) (t : Tag) (x : Transaction) (r : BusResponse) :
    (s.answerSlot t x r).Bounded := h.of_unbounded (answerSlot_keeps t x r s) (by decide)

/-! ### Creating and ending holds -/

theorem askHold_keeps (h : Hold) (s : State) : KeepsAllBut [.holds] s (s.askHold h) := by
  unfold State.askHold
  split
  · intro p; cases p <;> simp [Piece.Same]
  · intro p; cases p <;> simp [Piece.Same]
  · exact .refl _ s

theorem holdAnswer_created {s : State} {id : Byte} (h : s.holdAnswer = .created id) :
    s.noHold = false ∧ s.holds.length < 4 ∧ id = s.newHoldId := by
  unfold State.holdAnswer at h
  split at h
  · cases h
  · split at h
    · cases h
    · next hn hl => cases h; exact ⟨by simpa using hn, Nat.lt_of_not_le hl, rfl⟩

/-- A hold is created with fewer than four in the queue alone, and the refused count is cut at its largest value. -/
theorem askHold_bounded {s : State} (h : s.Bounded) (g : Hold) : (s.askHold g).Bounded := by
  refine h.of_keeps (askHold_keeps g s) ?_
  simp only [List.mem_singleton, forall_eq]
  have room := h.holds
  have refused := h.refusedHolds
  unfold State.askHold
  split
  · next id ha =>
    have := (holdAnswer_created ha).2.1
    exact ⟨by simp; omega, refused⟩
  · exact ⟨room, by simp only; omega⟩
  · exact ⟨room, refused⟩

theorem carryOut_bounded {s : State} (h : s.Bounded) (mayHold : Bool) (x : Transaction) : (s.carryOut mayHold x).Bounded := by
  unfold State.carryOut
  split
  · split
    · exact putSlot_bounded (askHold_bounded h _) _ _
    · exact putSlot_bounded h _ _
  · exact putSlot_bounded h _ _

theorem enter_bounded {s : State} (h : s.Bounded) (x : Transaction) : (s.enter x).Bounded := by
  unfold State.enter
  split
  · exact putSlot_bounded h _ _
  · exact carryOut_bounded h _ _

theorem holdResponse_bounded {s : State} (h : s.Bounded) (t : Tag) (x : Transaction) (r : BusResponse) (g : Hold) :
    (s.holdResponse t x r g).Bounded := by
  unfold State.holdResponse
  split
  · exact putSlot_bounded (askHold_bounded h g) _ _
  all_goals exact answerSlot_bounded (askHold_bounded h g) _ _ _

theorem unparkOne_bounded {s : State} (h : s.Bounded) (mayHold : Bool) (t : Tag) : (s.unparkOne mayHold t).Bounded := by
  unfold State.unparkOne
  split
  · exact h
  · split
    · exact appendAll_bounded (carryOut_bounded h _ _) _
    · exact h

theorem unparkPass_bounded {s : State} (h : s.Bounded) (mayHold : Bool) : (s.unparkPass mayHold).Bounded := by
  unfold State.unparkPass
  generalize s.parkedTags = ts
  induction ts generalizing s with
  | nil => exact h
  | cons t ts ih => exact ih (unparkOne_bounded h mayHold t)

theorem deliver_bounded {s : State} (h : s.Bounded) (proceeds : Bool) (g : Hold) : (s.deliver proceeds g).Bounded := by
  unfold State.deliver
  split
  · exact h
  · split
    · split
      · exact putSlot_bounded h _ _
      · exact answerSlot_bounded h _ _ _
    · exact answerSlot_bounded h _ _ _

theorem removeHold_bounded {s : State} (h : s.Bounded) (id : Byte) : (s.removeHold id).Bounded := by
  have keeps : KeepsAllBut [.holds] s (s.removeHold id) := by intro p; cases p <;> simp [Piece.Same]
  refine h.of_keeps keeps ?_
  simp only [List.mem_singleton, forall_eq]
  exact ⟨(List.length_filter_le _ _).trans h.holds, h.refusedHolds⟩

theorem endHold_bounded {s : State} (h : s.Bounded) (mayHold proceeds expiry : Bool) (o : TraceOutcome) (g : Hold) :
    (s.endHold mayHold proceeds expiry o g).Bounded := by
  have ended := postIf_bounded (append_bounded (deliver_bounded (removeHold_bounded h g.id) proceeds g)
    (g.endNote (some g.id) o)) expiry .expiry g.id
  unfold State.endHold
  split
  · exact unparkPass_bounded ended mayHold
  · exact ended

theorem expireNext_bounded {s : State} (h : s.Bounded) : s.expireNext.Bounded := by
  unfold State.expireNext State.expire
  split
  · exact h
  · split <;> exact endHold_bounded h _ _ _ _ _

theorem endHolds_bounded {s : State} (h : s.Bounded) (gs : List Hold) :
    (gs.foldl (State.endHold false true false .cleared) s).Bounded := by
  induction gs generalizing s with
  | nil => exact h
  | cons g gs ih => exact ih (endHold_bounded h _ _ _ _ g)

theorem clearHolds_bounded {s : State} (h : s.Bounded) : s.clearHolds.Bounded := by
  have ended := endHolds_bounded h s.holds
  unfold State.clearHolds
  generalize s.holds.foldl (State.endHold false true false .cleared) s = u at ended ⊢
  have keeps : KeepsAllBut [.holds, .mode] u { u with refusedHolds := 0, noHold := false } := by
    intro p; cases p <;> simp [Piece.Same]
  refine ended.of_keeps keeps ?_
  simp only [List.mem_cons, List.not_mem_nil, or_false, forall_eq_or_imp, forall_eq]
  exact ⟨⟨ended.holds, Nat.zero_le _⟩, trivial⟩

theorem requesterReset_bounded {s : State} (h : s.Bounded) : s.requesterReset.Bounded := by
  have logged := appendAll_bounded h (systemNote :: s.holds.map fun g => g.endNote (some g.id) .dropped)
  have keeps : KeepsAllBut [.slots, .holds] _ s.requesterReset :=
    show KeepsAllBut [.slots, .holds] (s.appendAll (systemNote :: s.holds.map fun g => g.endNote (some g.id) .dropped)) _ by
      intro p; cases p <;> simp [Piece.Same, State.requesterReset]
  refine logged.of_keeps keeps ?_
  simp only [List.mem_cons, List.not_mem_nil, or_false, forall_eq_or_imp, forall_eq]
  exact ⟨trivial, Nat.zero_le _, logged.refusedHolds⟩

/-! ### The path's events -/

theorem judged_bounded {s : State} (h : s.Bounded) (r : Request) : (s.judged r).Bounded :=
  h.of_unbounded (judged_keeps r s) (by decide)

theorem arrived_bounded {s t : State} {r : Request} (h : s.Bounded) (ha : Arrived s r t) : t.Bounded := by
  cases ha with
  | wrong ho =>
    exact appendAll_bounded (answerSlot_bounded (h.of_unbounded (accepted_keeps s) (by decide)) _ _ _) _
  | answered ns hs =>
    exact appendAll_bounded
      (answerSlot_bounded ((judged_bounded h r).of_unbounded (putStore_keeps _ _) (by decide)) _ _ _) _
  | entered ns => exact appendAll_bounded (enter_bounded (judged_bounded h r) _) _

/-- A grant is made with fewer than 8 accesses outstanding, and the fairness count is raised from less than 4 (R13, R15). -/
theorem granted_bounded {s t : State} (h : s.Bounded) (hg : Granted s t) : t.Bounded := by
  have fair := h.fairness
  cases hg with
  | none _ => exact h
  | path room ht hx turn =>
    refine h.of_keeps (grantPath_keeps _ _ s) ?_
    simp only [List.mem_cons, List.not_mem_nil, or_false, forall_eq_or_imp, forall_eq]
    refine ⟨trivial, by simpa [Piece.Fits, State.grantPath] using room, ?_⟩
    rcases turn with turn | turn
    · simp [Piece.Fits, State.grantPath, turn]
    · simp only [Piece.Fits, State.grantPath]
      split <;> omega
  | injected room ha turn =>
    refine h.of_keeps (grantInjected_keeps _ s) ?_
    simp only [List.mem_cons, List.not_mem_nil, or_false, forall_eq_or_imp, forall_eq]
    exact ⟨by simpa [Piece.Fits, State.grantInjected] using room, Nat.zero_le _,
      by simpa [Piece.Fits, State.grantInjected, State.updateAccess] using h.injected⟩

theorem slotReturned_bounded {s u : State} {t : Tag} {x : Transaction} {ret : MemReturn} (h : s.Bounded)
    (hr : SlotReturned s t x ret u) : u.Bounded := by
  have late := h.of_unbounded (lateState_keeps x ret s) (by decide)
  cases hr with
  | answered resp ns => exact appendAll_bounded (answerSlot_bounded late _ _ _) _
  | asked e b p ns => exact appendAll_bounded (holdResponse_bounded late _ _ _ _) _

theorem returned_bounded {s t : State} {ret : MemReturn} (h : s.Bounded) (hr : Returned s ret t) : t.Bounded := by
  have drop : ∀ {e rest}, s.issueList = e :: rest → (s.putIssue rest).Bounded := by
    intro e rest hi
    refine h.of_keeps (putIssue_keeps rest s) ?_
    have room := h.issueList
    simp only [hi, List.length_cons] at room
    simp only [List.mem_singleton, forall_eq, Piece.Fits, State.putIssue]
    omega
  cases hr with
  | none _ => exact h
  | injected hi =>
    refine (drop hi).of_keeps (updateAccess_keeps _ _ _) ?_
    simpa [Piece.Fits, State.returnToAccess, State.updateAccess, State.putIssue] using h.injected
  | orphan hi _ _ => exact (drop hi).of_unbounded (freeSlot_keeps _ _) (by decide)
  | slot hi _ _ hu => exact slotReturned_bounded (drop hi) hu
  | stray hi _ => exact drop hi

/-! ### Time, the lines and the link -/

theorem countTick_bounded {s : State} (h : s.Bounded) (b : Bool) : (s.countTick b).Bounded := by
  refine h.of_keeps (countTick_keeps b s) ?_
  have divider := h.divider
  simp only [List.mem_cons, List.not_mem_nil, or_false, forall_eq_or_imp, forall_eq]
  refine ⟨?_, fun n hn => ?_, ?_⟩
  · simp only [Piece.Fits, State.countTick]
    split <;> omega
  · simp only [State.countTick, Option.map_eq_some_iff] at hn
    obtain ⟨m, hm, rfl⟩ := hn
    exact (Nat.sub_le m 1).trans (h.pulse m hm)
  · simp only [Piece.Fits, State.countTick]
    split <;> simp [gapLimit]

theorem stepBudgets_bounded {s : State} (h : s.Bounded) : s.stepBudgets.Bounded := by
  refine h.of_keeps (stepBudgets_keeps s) ?_
  simp only [List.mem_singleton, forall_eq]
  refine ⟨?_, h.refusedHolds⟩
  simp only [State.stepBudgets]
  split
  · simpa using h.holds
  · exact h.holds

theorem endPulse_bounded {s : State} (h : s.Bounded) : s.endPulse.Bounded := by
  refine h.of_keeps (endPulse_keeps s) ?_
  simp only [List.mem_singleton, forall_eq]
  intro n hn
  simp only [State.endPulse] at hn
  split at hn
  · cases hn
  · exact h.pulse n hn

theorem startPulse_bounded {s : State} (h : s.Bounded) : s.startPulse.Bounded := by
  have started : ∀ {u : State}, u.Bounded → State.Bounded { u with pulse := some 100 } := by
    intro u hu
    refine hu.of_keeps (putPulse_keeps _ u) ?_
    simp [Piece.Fits]
  unfold State.startPulse
  split
  · exact started h
  · exact started (requesterReset_bounded h)

theorem assertRqrstIn_bounded {s : State} (h : s.Bounded) : s.assertRqrstIn.Bounded := by
  unfold State.assertRqrstIn
  split
  · exact h
  · exact (requesterReset_bounded h).of_unbounded (putLine_keeps true _) (by decide)

/-- The pause is as it was, or is measured anew. -/
theorem State.Bounded.of_pause {s t : State} (h : s.Bounded) (k : KeepsAllBut [.gap] s t) (hg : t.gap = s.gap ∨ t.gap = 0) :
    t.Bounded := by
  refine h.of_keeps k ?_
  have pause := h.gap
  simp only [List.mem_singleton, forall_eq, Piece.Fits]
  omega

theorem act_bounded {s : State} (h : s.Bounded) (f : Frame) : (s.act f).Bounded := by
  refine h.of_pause (act_keeps f s) ?_
  unfold State.act State.readBack
  split <;> simp

theorem checkTaken_bounded {s : State} (h : s.Bounded) (f : Frame) : (s.checkTaken f).Bounded := by
  have counted : State.Bounded { s.countCheck f with gap := 0 } := by
    refine h.of_keeps (countCheck_keeps f s) ?_
    have errors := h.checkErrors
    simp only [List.mem_cons, List.not_mem_nil, or_false, forall_eq_or_imp, forall_eq]
    refine ⟨Nat.zero_le _, ?_⟩
    simp only [Piece.Fits, State.countCheck_checkErrors]
    split <;> omega
  unfold State.checkTaken
  split
  · dsimp only
    split
    · exact counted.of_unbounded (toReceiver_keeps _ _) (by decide)
    · exact act_bounded counted f
  · exact h

theorem startFrame_bounded {s : State} (h : s.Bounded) : s.startFrame.Bounded :=
  h.of_pause (startFrame_keeps s) (.inr rfl)

theorem actDeferred_bounded {s : State} (h : s.Bounded) : s.actDeferred.Bounded := by
  unfold State.actDeferred
  split
  · split
    · exact h
    · exact act_bounded h _
  all_goals exact h

theorem endBatch_bounded {s : State} (h : s.Bounded) : s.endBatch.Bounded := by
  refine h.of_pause (endBatch_keeps s) ?_
  unfold State.endBatch State.endAddressed State.endGroup
  repeat' split
  all_goals simp

theorem startRound_bounded {s : State} (h : s.Bounded) : s.startRound.Bounded := by
  refine h.of_pause (startRound_keeps s) ?_
  unfold State.startRound
  repeat' split
  all_goals simp

/-! ### The commands -/

theorem clearTrace_bounded {s : State} (h : s.Bounded) : s.clearTrace.Bounded := by
  refine h.of_keeps (clearTrace_keeps s) ?_
  simp [Piece.Fits]

theorem takeCommand_bounded {s : State} {run : State → State} (h : s.Bounded) (hr : (run s).Bounded) (k : Command) :
    (s.takeCommand k run).Bounded := by
  rcases takeCommand_cases k run s with e | ⟨b, st, -, -, e⟩ | ⟨b, -, -, -, -, e⟩
  · rw [e]; exact h
  · rw [e]; exact h.of_unbounded (answered_keeps b k st [] s) (by decide)
  · rw [e]; exact hr

theorem clearingEffect_bounded {s : State} {f : State → State} (h : s.Bounded) (hf : (f s).Bounded) (c : ClearStep) :
    (clearingEffect c f s).Bounded := by
  unfold clearingEffect
  split
  · exact hf
  · exact h

theorem withHold_bounded {s : State} {f : Hold → State → Reply} (h : s.Bounded) (id : Byte)
    (hf : ∀ g, (f g s).state.Bounded) : (withHold id f s).state.Bounded := by
  unfold withHold
  split
  · exact h
  · exact hf _

theorem ackTraceBody_bounded {s : State} (h : s.Bounded) (n : Half) : (ackTraceBody n s).state.Bounded := by
  refine h.of_keeps (ackTraceBody_keeps n s) ?_
  simp only [List.mem_singleton, forall_eq]
  have log := h.log
  unfold ackTraceBody
  split
  · exact ⟨by simp only [done, List.length_drop]; omega, h.lost⟩
  · exact ⟨log, h.lost⟩

theorem traceControlBody_bounded {s : State} (h : s.Bounded) (m : Byte) (n : Half) (f : Byte) :
    (traceControlBody m n f s).state.Bounded := by
  refine h.of_keeps (traceControlBody_keeps m n f s) ?_
  simp only [List.mem_cons, List.not_mem_nil, or_false, forall_eq_or_imp, forall_eq]
  have log := h.log
  have lost := h.lost
  unfold traceControlBody
  split
  · exact ⟨⟨log, lost⟩, h.threshold⟩
  · split
    · next hn =>
      refine ⟨⟨?_, ?_⟩, hn.1⟩
      · simp only [done, State.setTrace_log]
        split <;> simp [log]
      · simp only [done, State.setTrace_lost]
        split <;> simp [lost]
    · exact ⟨⟨log, lost⟩, h.threshold⟩

theorem updateHold_bounded {s : State} (h : s.Bounded) (g : Hold) : (s.updateHold g).Bounded := by
  refine h.of_keeps (updateHold_keeps g s) ?_
  simp only [List.mem_singleton, forall_eq]
  exact ⟨by simpa using h.holds, h.refusedHolds⟩

theorem amendBody_bounded {s : State} (h : s.Bounded) (id n : Byte) (d : List Byte) : (amendBody id n d s).state.Bounded := by
  unfold amendBody
  split
  · refine withHold_bounded h id fun g => ?_
    unfold amendRecord State.amendHold
    split
    · exact h
    · split
      · exact h
      · unfold done
        split
        · exact (updateHold_bounded h _).of_unbounded (amendSlot_keeps _ _ _) (by decide)
        · exact updateHold_bounded h _
  · exact h

theorem extendBody_bounded {s : State} (h : s.Bounded) (id : Byte) (u : Half) : (extendBody id u s).state.Bounded := by
  unfold extendBody
  split
  · refine withHold_bounded h id fun g => ?_
    unfold extendRecord
    split
    · exact h
    · exact updateHold_bounded h _
  · exact h

theorem nextAccess_ne_zero (id : Byte) : nextAccess id ≠ 0 := by
  unfold nextAccess
  split <;> bv_omega

theorem injectBody_bounded {s : State} (h : s.Bounded) (k : AccessKind) (a : Word) (z : Byte) (d : List Byte) :
    (injectBody k a z d s).state.Bounded := by
  unfold injectBody
  split
  · exact h
  · repeat' split
    · exact h
    · exact h
    · exact h
    · next sz _ _ room _ =>
      have keeps : KeepsAllBut [.injected, .accessId] s (s.inject k a sz d) := by intro p; cases p <;> simp [Piece.Same]
      refine h.of_keeps keeps ?_
      simp only [List.mem_cons, List.not_mem_nil, or_false, forall_eq_or_imp, forall_eq]
      refine ⟨?_, nextAccess_ne_zero _⟩
      simp only [Piece.Fits, State.inject, List.length_append, List.length_singleton]
      omega

theorem accessResultBody_bounded {s : State} (h : s.Bounded) (id : Byte) : (accessResultBody id s).state.Bounded := by
  refine h.of_keeps (accessResultBody_keeps id s) ?_
  have removed := (List.length_filter_le (fun a : Access => decide (a.id ≠ id)) s.injected).trans h.injected
  simp only [List.mem_singleton, forall_eq]
  unfold accessResultBody
  split
  · exact h.injected
  · split
    · exact h.injected
    · exact h.injected
    all_goals exact removed

theorem reset_bounded : State.reset.Bounded where
  holds := Nat.zero_le _
  refusedHolds := Nat.zero_le _
  divider := Nat.zero_le _
  log := Nat.zero_le _
  lost := Nat.zero_le _
  threshold := Nat.zero_le _
  injected := Nat.zero_le _
  accessId := by decide
  issueList := Nat.zero_le _
  fairness := Nat.zero_le _
  checkErrors := Nat.zero_le _
  pulse := by intro n hn; cases hn
  gap := Nat.zero_le _

/-- A state in reset has the power-on values of every piece but the identity, POR_N, RQRST_IN, the port and the grants. -/
theorem inReset_bounded (por l : Bool) (s : State) : (s.inReset por l).Bounded := by
  refine (bounded_iff _).2 fun p => ?_
  have fits := (bounded_iff _).1 reset_bounded p
  cases p <;> exact fits

theorem bounded_kept : Kept boundedPieces State.Bounded where
  depends := bounded_dependsOn
  queue := by decide
  inReset := inReset_bounded
  present r s h := h.of_unbounded (leavePresented_keeps r s) (by decide)
  arrive r s t h _ ha := arrived_bounded h ha
  due c f hf hm s h := by
    cases c <;> cases hf
    case budgetStep => exact stepBudgets_bounded h
    case holdExpiry => exact expireNext_bounded h
    case pulseEnd => exact endPulse_bounded h
    all_goals exact absurd hm (by decide)
  event c f hf hm s h := by
    cases c <;> cases hf
    case memoryPortGrant => exact granted_bounded h (granted s)
    case memoryReturn r => exact returned_bounded h (returned s r)
    case tick b => exact countTick_bounded h b
    case rqrstInAsserted => exact assertRqrstIn_bounded h
    case frameStart => exact startFrame_bounded h
    case deferredFrameAction => exact actDeferred_bounded h
    case batchEnd => exact endBatch_bounded h
    case roundStart => exact startRound_bounded h
    case clearUnit =>
      exact takeCommand_bounded h ((clearTrace_bounded h).of_unbounded (setClearing_keeps _ _) (by decide)) _
    case clearUnitHolds =>
      exact clearingEffect_bounded h ((clearHolds_bounded h).of_unbounded (setClearing_keeps _ _) (by decide)) _
    case badCheckFrame f | commandFrame f | groupCommandFrame f | readbackFrame f | enumFrame f | pollFrame f
      | frameNotActedOn f => exact checkTaken_bounded h f
    all_goals exact absurd hm Bool.false_ne_true
  command c k body hk hm s h := by
    cases c <;> cases hk
    case ackTrace n => exact ackTraceBody_bounded h n
    case traceControl m n f => exact traceControlBody_bounded h m n f
    case release id => exact withHold_bounded h id fun g => endHold_bounded h _ _ _ _ g
    case amend id n d => exact amendBody_bounded h id n d
    case fail id => exact withHold_bounded h id fun g => endHold_bounded h _ _ _ _ g
    case extend id u => exact extendBody_bounded h id u
    case peek a z => exact injectBody_bounded h .peek a z []
    case poke a z d => exact injectBody_bounded h .poke a z d
    case accessResult id => exact accessResultBody_bounded h id
    case resetRequester => exact startPulse_bounded h
    all_goals exact absurd hm Bool.false_ne_true

/-- Settles O6: every row keeps the bounds of the pieces it touches. -/
theorem everyStepKeepsRoomAndCounts : Obligations.EveryStepKeepsRoomAndCounts :=
  fun _ _ h ht => bounded_kept.step h ht

end Sys2Proof.Machine
end

-- ==== The tags on the memory port ====
section
/-! O11: a grant takes a tag that no outstanding access carries, whichever of them the free value picks (R3). -/

namespace Sys2Proof.Machine

theorem mem_unusedMemTags (s : State) (t : Tag) : t ∈ s.unusedMemTags ↔ ∀ e ∈ s.issueList, e.sent.tag ≠ t := by
  simp [State.unusedMemTags, mem_allTags]

/-- With fewer than 8 accesses outstanding some tag is not in use. -/
theorem unusedMemTags_ne_nil {s : State} (room : s.issueList.length < 8) : s.unusedMemTags ≠ [] := by
  intro h
  have used : allTags ⊆ s.issueList.map fun e => e.sent.tag := by
    intro t _
    have ht : t ∉ s.unusedMemTags := by simp [h]
    rw [mem_unusedMemTags] at ht
    push Not at ht
    obtain ⟨e, he, rfl⟩ := ht
    exact List.mem_map_of_mem he
  have count := ((List.nodup_finRange 8).subperm used).length_le
  simp only [List.length_finRange, List.length_map] at count
  omega

/-- The tag that a grant takes is one of those not in use (R3; log entry 4). -/
theorem memTag_unused {s : State} (room : s.issueList.length < 8) : ∀ e ∈ s.issueList, e.sent.tag ≠ s.memTag := by
  have pos := List.length_pos_iff.2 (unusedMemTags_ne_nil room)
  have lt := Nat.mod_lt (Config.memoryTagChoice s.freeCount) pos
  rw [← mem_unusedMemTags]
  unfold State.memTag
  rw [List.getD_eq_getElem _ _ lt]
  exact List.getElem_mem lt

/-- One more access with the tag that a grant takes. -/
theorem memTags_nodup_concat {s : State} (h : s.MemTagsDistinct) (room : s.issueList.length < 8) {e : IssueEntry}
    (he : e.sent.tag = s.memTag) : ((s.issueList ++ [e]).map fun e => e.sent.tag).Nodup := by
  rw [List.map_append, List.map_singleton, he]
  refine List.nodup_append.2 ⟨h, List.nodup_singleton _, fun a ha b hb => ?_⟩
  obtain ⟨e', he', rfl⟩ := List.mem_map.1 ha
  rw [List.mem_singleton.1 hb]
  exact memTag_unused room e' he'

theorem granted_memTags {s t : State} (h : s.MemTagsDistinct) (hg : Granted s t) : t.MemTagsDistinct := by
  cases hg with
  | none _ => exact h
  | path room _ _ _ => exact memTags_nodup_concat h room rfl
  | injected room _ _ => exact memTags_nodup_concat h room rfl

theorem memTags_dependsOn : DependsOn [.issue] State.MemTagsDistinct := by
  intro s t same h
  have list : t.issueList = s.issueList := same .issue (by decide)
  unfold State.MemTagsDistinct
  rw [list]
  exact h

/-- A return takes the oldest access off the list (R16). -/
theorem returned_memTags {s t : State} {ret : MemReturn} (h : s.MemTagsDistinct) (hr : Returned s ret t) :
    t.MemTagsDistinct := by
  have drop : ∀ {e rest}, s.issueList = e :: rest → (s.putIssue rest).MemTagsDistinct := by
    intro e rest hi
    unfold State.MemTagsDistinct at h
    rw [hi] at h
    exact (List.nodup_cons.1 h).2
  have keep : ∀ {u v ps}, u.MemTagsDistinct → KeepsAllBut ps u v → Piece.issue ∉ ps → v.MemTagsDistinct :=
    fun hu k hp => memTags_dependsOn.of_keeps k (by simpa using hp) hu
  cases hr with
  | none _ => exact h
  | injected hi => exact keep (drop hi) (updateAccess_keeps _ _ _) (by decide)
  | orphan hi _ _ => exact keep (drop hi) (freeSlot_keeps _ _) (by decide)
  | slot hi _ _ hu => exact keep (drop hi) (slotReturned_keeps hu) (by decide)
  | stray hi _ => exact drop hi

theorem memTags_kept : Kept [.issue] State.MemTagsDistinct where
  depends := memTags_dependsOn
  queue := by decide
  inReset _ _ _ := List.nodup_nil
  present r s h := memTags_dependsOn.of_keeps (leavePresented_keeps r s) (by decide) h
  arrive r s t h _ ha := memTags_dependsOn.of_keeps (arrived_keeps ha) (by decide) h
  due c f hf hm s h := by cases c <;> cases hf <;> exact absurd hm (by decide)
  event c f hf hm s h := by
    cases c <;> cases hf
    case memoryPortGrant => exact granted_memTags h (granted s)
    case memoryReturn r => exact returned_memTags h (returned s r)
    all_goals exact absurd hm Bool.false_ne_true
  command c k body hk hm s h := by cases c <;> cases hk <;> exact absurd hm Bool.false_ne_true

/-- Settles O11: a grant alone adds an access, and it takes a tag that is not in use. -/
theorem everyStepKeepsMemoryTagsDistinct : Obligations.EveryStepKeepsMemoryTagsDistinct :=
  fun _ _ h ht => memTags_kept.step h ht

end Sys2Proof.Machine
end

-- ==== Queues and slots in agreement ====
section
/-! O12: the queues and lists agree with the slots. A row that moves a slot takes its tag off one list and puts it on another; in
between the path is sound but for that slot (`State.SoundBut`), and `PathSound.without` and `SoundBut.close` are the two halves
of every move. -/

namespace Sys2Proof.Machine

/-- The targets of the issue list (R13). -/
def State.targets (s : State) : List IssueTarget := s.issueList.map (·.target)

/-- A slot stands with a response in the answer queue (R20). -/
def isAnswering (st : Stage) : Prop := ∃ r, st = .answering r

/-- A slot is held with its response (R50). -/
def isHeldResponse (st : Stage) : Prop := ∃ r, st = .heldResponse r

/-- A slot has an access outstanding on the memory port (R13). -/
def isOutstanding (st : Stage) : Prop := st = .issued ∨ st = .orphan

/-- The path is sound but for the slot of `u`, which no queue and no list names. -/
structure State.SoundBut (u : Tag) (s : State) : Prop where
  tags : ∀ t x, t ≠ u → s.slot t = some x → x.request.tag = t
  answerNodup : s.answerQueue.Nodup
  answerFree : u ∉ s.answerQueue
  answering : ∀ t, t ≠ u → (t ∈ s.answerQueue ↔ s.slotIn t isAnswering)
  holdIds : (s.holds.map (·.id)).Nodup
  holdTags : (s.holds.map (·.tag)).Nodup
  holdFree : ∀ h ∈ s.holds, h.tag ≠ u
  before : ∀ t, t ≠ u → ((∃ h ∈ s.holds, h.tag = t ∧ h.point = .before) ↔ s.slotIn t fun st => st = .held)
  after : ∀ t, t ≠ u → ((∃ h ∈ s.holds, h.tag = t ∧ h.point = .after) ↔ s.slotIn t isHeldResponse)
  issueNodup : s.targets.Nodup
  issueFree : IssueTarget.slot u ∉ s.targets
  issued : ∀ t, t ≠ u → (IssueTarget.slot t ∈ s.targets ↔ s.slotIn t isOutstanding)
  accessIds : (s.injected.map (·.id)).Nodup
  injected : ∀ id, IssueTarget.injected id ∈ s.targets ↔ ∃ a ∈ s.injected, a.id = id ∧ a.state = .issued

theorem slotIn_congr {s t : State} {v : Tag} (h : t.slot v = s.slot v) (p : Stage → Prop) : t.slotIn v p ↔ s.slotIn v p := by
  simp [State.slotIn, h]

theorem slotIn_of_slot {s : State} {v : Tag} {x : Transaction} (h : s.slot v = some x) (p : Stage → Prop) :
    s.slotIn v p ↔ p x.stage := by
  simp [State.slotIn, h]

theorem not_slotIn_of_free {s : State} {v : Tag} (h : s.slot v = none) (p : Stage → Prop) : ¬ s.slotIn v p := by
  simp [State.slotIn, h]

/-- What the two states must share for soundness to carry over. -/
structure PathSame (s t : State) : Prop where
  transit : t.transit = s.transit
  answerQueue : t.answerQueue = s.answerQueue
  holds : t.holds = s.holds
  issueList : t.issueList = s.issueList
  injected : t.injected = s.injected

theorem PathSame.of_keeps {ps : List Piece} {s t : State} (k : KeepsAllBut ps s t)
    (apart : ∀ p ∈ [Piece.slots, .holds, .issue, .injected], p ∉ ps) : PathSame s t := by
  have slots : Piece.slots.Same s t := k.same (apart _ (by decide))
  have holds : Piece.holds.Same s t := k.same (apart _ (by decide))
  have issue : Piece.issue.Same s t := k.same (apart _ (by decide))
  have injected : Piece.injected.Same s t := k.same (apart _ (by decide))
  simp only [Piece.Same, Prod.mk.injEq] at slots holds
  exact ⟨slots.1, slots.2, holds.1, issue, injected⟩

theorem PathSame.slot {s t : State} (h : PathSame s t) (v : Tag) : t.slot v = s.slot v := by
  simp [State.slot, h.transit]

theorem State.PathSound.of_same {s t : State} (h : s.PathSound) (k : PathSame s t) : t.PathSound := by
  obtain ⟨ht, ha, hh, hi, hj⟩ := k
  obtain ⟨h1, h2, h3, h4, h5, h6, h7, h8, h9, h10, h11⟩ := h
  constructor <;> simp only [State.slotIn, State.slot, ht, ha, hh, hi, hj] at * <;> assumption

theorem State.SoundBut.of_same {u : Tag} {s t : State} (h : s.SoundBut u) (k : PathSame s t) : t.SoundBut u := by
  obtain ⟨ht, ha, hh, hi, hj⟩ := k
  obtain ⟨h1, h2, h3, h4, h5, h6, h7, h8, h9, h10, h11, h12, h13, h14⟩ := h
  constructor <;> simp only [State.slotIn, State.slot, State.targets, ht, ha, hh, hi, hj] at * <;> assumption

/-! ### The two halves of a move -/

/-- A tag is taken off the list that names it: what is left is sound but for its slot. -/
theorem State.PathSound.without {s t : State} {u : Tag} (h : s.PathSound) (slots : ∀ v, v ≠ u → t.slot v = s.slot v)
    (answer : t.answerQueue.Sublist s.answerQueue) (answerRest : ∀ v ∈ s.answerQueue, v ≠ u → v ∈ t.answerQueue)
    (answerFree : u ∉ t.answerQueue)
    (holds : t.holds.Sublist s.holds) (holdRest : ∀ g ∈ s.holds, g.tag ≠ u → g ∈ t.holds)
    (holdFree : ∀ g ∈ t.holds, g.tag ≠ u)
    (issue : t.issueList.Sublist s.issueList) (issueRest : ∀ e ∈ s.issueList, e.target ≠ .slot u → e ∈ t.issueList)
    (issueFree : IssueTarget.slot u ∉ t.targets) (injected : t.injected = s.injected) : t.SoundBut u where
  tags v x hv hx := h.tags v x ((slots v hv).symm.trans hx)
  answerNodup := h.answerNodup.sublist answer
  answerFree := answerFree
  answering v hv := by
    rw [slotIn_congr (slots v hv)]
    refine Iff.trans ?_ (h.answering v)
    exact ⟨fun hm => answer.subset hm, fun hm => answerRest v hm hv⟩
  holdIds := h.holdIds.sublist (holds.map _)
  holdTags := h.holdTags.sublist (holds.map _)
  holdFree := holdFree
  before v hv := by
    rw [slotIn_congr (slots v hv), ← h.before v]
    exact ⟨fun ⟨g, hg, ht, hp⟩ => ⟨g, holds.subset hg, ht, hp⟩,
      fun ⟨g, hg, ht, hp⟩ => ⟨g, holdRest g hg (ht ▸ hv), ht, hp⟩⟩
  after v hv := by
    rw [slotIn_congr (slots v hv)]
    refine Iff.trans ?_ (h.after v)
    exact ⟨fun ⟨g, hg, ht, hp⟩ => ⟨g, holds.subset hg, ht, hp⟩,
      fun ⟨g, hg, ht, hp⟩ => ⟨g, holdRest g hg (ht ▸ hv), ht, hp⟩⟩
  issueNodup := h.issueNodup.sublist (issue.map _)
  issueFree := issueFree
  issued v hv := by
    rw [slotIn_congr (slots v hv)]
    refine Iff.trans ?_ (h.issued v)
    simp only [State.targets, List.mem_map]
    exact ⟨fun ⟨e, he, ht⟩ => ⟨e, issue.subset he, ht⟩,
      fun ⟨e, he, ht⟩ => ⟨e, issueRest e he (by rw [ht]; simpa using hv), ht⟩⟩
  accessIds := injected ▸ h.accessIds
  injected id := by
    rw [injected, ← h.injected id]
    simp only [State.targets, List.mem_map]
    exact ⟨fun ⟨e, he, ht⟩ => ⟨e, issue.subset he, ht⟩, fun ⟨e, he, ht⟩ => ⟨e, issueRest e he (by rw [ht]; simp), ht⟩⟩

/-- What a slot adds to the lists: its tag, its record and its access go on those that its stage calls for. -/
structure Listed (s t : State) (u : Tag) (A : List Tag) (H : List Hold) (I : List IssueEntry) : Prop where
  tag : ∀ x, t.slot u = some x → x.request.tag = u
  answer : A = [u] ∧ t.slotIn u isAnswering ∨ A = [] ∧ ¬ t.slotIn u isAnswering
  hold : (∃ g, H = [g] ∧ g.tag = u ∧ g.id ∉ s.holds.map (·.id) ∧
      (g.point = .before ∧ t.slotIn u (· = .held) ∧ ¬ t.slotIn u isHeldResponse ∨
        g.point = .after ∧ ¬ t.slotIn u (· = .held) ∧ t.slotIn u isHeldResponse)) ∨
    H = [] ∧ ¬ t.slotIn u (· = .held) ∧ ¬ t.slotIn u isHeldResponse
  issue : (∃ m, I = [⟨.slot u, m⟩] ∧ t.slotIn u isOutstanding) ∨ I = [] ∧ ¬ t.slotIn u isOutstanding

/-- A slot takes a new stage and goes on the lists that the stage calls for: the path is sound again. -/
theorem State.SoundBut.close {s t : State} {u : Tag} {A : List Tag} {H : List Hold} {I : List IssueEntry} (h : s.SoundBut u)
    (slots : ∀ v, v ≠ u → t.slot v = s.slot v) (answer : t.answerQueue = s.answerQueue ++ A)
    (holds : t.holds = s.holds ++ H) (issue : t.issueList = s.issueList ++ I) (injected : t.injected = s.injected)
    (listed : Listed s t u A H I) : t.PathSound := by
  have targets : t.issueList.map (·.target) = s.targets ++ I.map (·.target) := by rw [issue, List.map_append]; rfl
  obtain ⟨tag, la, lh, li⟩ := listed
  have holdMem : ∀ v p, v ≠ u →
      ((∃ g ∈ t.holds, g.tag = v ∧ g.point = p) ↔ ∃ g ∈ s.holds, g.tag = v ∧ g.point = p) := by
    intro v p hv
    rcases lh with ⟨g, rfl, ht, -, -⟩ | ⟨rfl, -, -⟩
    · simp only [holds, List.mem_append, List.mem_singleton]
      constructor
      · rintro ⟨k, hk | rfl, htag, hp⟩
        · exact ⟨k, hk, htag, hp⟩
        · exact absurd (htag.symm.trans ht) hv
      · rintro ⟨k, hk, htag, hp⟩
        exact ⟨k, .inl hk, htag, hp⟩
    · rw [holds, List.append_nil]
  have holdFree : ∀ p, ¬ ∃ g ∈ s.holds, g.tag = u ∧ g.point = p := fun p ⟨g, hg, ht, _⟩ => h.holdFree g hg ht
  have holdOwn : ∀ p, (∃ g ∈ t.holds, g.tag = u ∧ g.point = p) ↔ ∃ g ∈ H, g.tag = u ∧ g.point = p := by
    intro p
    simp only [holds, List.mem_append, or_and_right, exists_or, holdFree p, false_or]
  constructor
  case tags =>
    intro v x hx
    by_cases hv : v = u
    · subst hv; exact tag x hx
    · exact h.tags v x hv ((slots v hv).symm.trans hx)
  case answerNodup =>
    rw [answer]
    rcases la with ⟨rfl, -⟩ | ⟨rfl, -⟩
    · rw [← List.concat_eq_append]
      exact h.answerNodup.concat h.answerFree
    · simpa using h.answerNodup
  case answering =>
    intro v
    change _ ↔ t.slotIn v isAnswering
    rw [answer, List.mem_append]
    by_cases hv : v = u
    · subst hv
      rcases la with ⟨rfl, hl⟩ | ⟨rfl, hl⟩ <;> simp [hl, h.answerFree]
    · rw [slotIn_congr (slots v hv), ← h.answering v hv]
      rcases la with ⟨rfl, -⟩ | ⟨rfl, -⟩ <;> simp [hv]
  case holdIds =>
    rw [holds, List.map_append]
    rcases lh with ⟨g, rfl, -, hn, -⟩ | ⟨rfl, -, -⟩
    · rw [List.map_singleton, ← List.concat_eq_append]
      exact h.holdIds.concat hn
    · simpa using h.holdIds
  case holdTags =>
    rw [holds, List.map_append]
    rcases lh with ⟨g, rfl, ht, -, -⟩ | ⟨rfl, -, -⟩
    · rw [List.map_singleton, ← List.concat_eq_append]
      refine h.holdTags.concat fun hm => ?_
      obtain ⟨k, hk, hkt⟩ := List.mem_map.1 hm
      exact h.holdFree k hk (hkt.trans ht)
    · simpa using h.holdTags
  case before =>
    intro v
    by_cases hv : v = u
    · subst hv
      rw [holdOwn]
      rcases lh with ⟨g, rfl, ht, -, ⟨hp, hl, -⟩ | ⟨hp, hl, -⟩⟩ | ⟨rfl, hl, -⟩ <;> simp_all
    · rw [slotIn_congr (slots v hv), holdMem v _ hv]
      exact h.before v hv
  case after =>
    intro v
    change _ ↔ t.slotIn v isHeldResponse
    by_cases hv : v = u
    · subst hv
      rw [holdOwn]
      rcases lh with ⟨g, rfl, ht, -, ⟨hp, -, hl⟩ | ⟨hp, -, hl⟩⟩ | ⟨rfl, -, hl⟩ <;> simp_all
    · rw [slotIn_congr (slots v hv), holdMem v _ hv]
      exact h.after v hv
  case issueNodup =>
    rw [targets]
    rcases li with ⟨m, rfl, -⟩ | ⟨rfl, -⟩
    · rw [List.map_singleton, ← List.concat_eq_append]
      exact h.issueNodup.concat h.issueFree
    · simpa using h.issueNodup
  case issued =>
    intro v
    change _ ↔ t.slotIn v isOutstanding
    rw [targets, List.mem_append]
    by_cases hv : v = u
    · subst hv
      rcases li with ⟨m, rfl, hl⟩ | ⟨rfl, hl⟩ <;> simp [hl, h.issueFree]
    · rw [slotIn_congr (slots v hv), ← h.issued v hv]
      rcases li with ⟨m, rfl, -⟩ | ⟨rfl, -⟩ <;> simp [hv]
  case accessIds => rw [injected]; exact h.accessIds
  case injected =>
    intro id
    rw [targets, List.mem_append, injected, ← h.injected id]
    rcases li with ⟨m, rfl, -⟩ | ⟨rfl, -⟩ <;> simp

/-! ### Taking a slot off its list -/

/-- A record of the hold queue stands for a slot that is held at its point (R49). -/
theorem State.PathSound.held_of_mem {s : State} (h : s.PathSound) {g : Hold} (hg : g ∈ s.holds) :
    g.point = .before ∧ s.slotIn g.tag (· = .held) ∨ g.point = .after ∧ s.slotIn g.tag isHeldResponse := by
  cases hp : g.point with
  | before => exact .inl ⟨rfl, (h.before g.tag).1 ⟨g, hg, rfl, hp⟩⟩
  | after => exact .inr ⟨rfl, (h.after g.tag).1 ⟨g, hg, rfl, hp⟩⟩

/-- A slot's stage is one of them at most. -/
theorem slotIn_unique {s : State} {u : Tag} {p q : Stage → Prop} (hp : s.slotIn u p) (hq : s.slotIn u q) :
    ∃ st, p st ∧ q st := by
  obtain ⟨x, hx, px⟩ := hp
  obtain ⟨y, hy, qy⟩ := hq
  rw [hx, Option.some.injEq] at hy
  subst hy
  exact ⟨x.stage, px, qy⟩

theorem State.PathSound.answerFree {s : State} (h : s.PathSound) {u : Tag} (hu : ¬ s.slotIn u isAnswering) :
    u ∉ s.answerQueue := fun hm => hu ((h.answering u).1 hm)

theorem State.PathSound.holdFree {s : State} (h : s.PathSound) {u : Tag} (hb : ¬ s.slotIn u (· = .held))
    (ha : ¬ s.slotIn u isHeldResponse) : ∀ g ∈ s.holds, g.tag ≠ u := by
  rintro g hg rfl
  rcases h.held_of_mem hg with ⟨-, hs⟩ | ⟨-, hs⟩
  · exact hb hs
  · exact ha hs

theorem State.PathSound.issueFree {s : State} (h : s.PathSound) {u : Tag} (hu : ¬ s.slotIn u isOutstanding) :
    IssueTarget.slot u ∉ s.targets := fun hm => hu ((h.issued u).1 hm)

/-- A slot that is FREE, PARKED or WAITING is on no list. -/
theorem State.PathSound.without_idle {s : State} (h : s.PathSound) {u : Tag}
    (hu : ∀ x, s.slot u = some x → x.stage = .parked ∨ x.stage = .waiting) : s.SoundBut u := by
  have off : ∀ p : Stage → Prop, ¬ p .parked → ¬ p .waiting → ¬ s.slotIn u p := by
    rintro p hp hw ⟨x, hx, px⟩
    rcases hu x hx with hs | hs <;> rw [hs] at px
    · exact hp px
    · exact hw px
  have answerFree := h.answerFree (off isAnswering (by simp [isAnswering]) (by simp [isAnswering]))
  have holdFree := h.holdFree (off (· = .held) (by simp) (by simp))
    (off isHeldResponse (by simp [isHeldResponse]) (by simp [isHeldResponse]))
  have issueFree := h.issueFree (off isOutstanding (by simp [isOutstanding]) (by simp [isOutstanding]))
  exact h.without (fun _ _ => rfl) (List.Sublist.refl _) (fun _ hv _ => hv) answerFree (List.Sublist.refl _)
    (fun _ hg _ => hg) holdFree (List.Sublist.refl _) (fun _ he _ => he) issueFree rfl

/-- The oldest answer leaves its queue. -/
theorem State.PathSound.without_answer {s t : State} (h : s.PathSound) {u : Tag} {q : List Tag} (hq : s.answerQueue = u :: q)
    (slots : ∀ v, v ≠ u → t.slot v = s.slot v) (answer : t.answerQueue = q) (holds : t.holds = s.holds)
    (issue : t.issueList = s.issueList) (injected : t.injected = s.injected) : t.SoundBut u := by
  have nodup := h.answerNodup
  rw [hq, List.nodup_cons] at nodup
  have hu : s.slotIn u isAnswering := (h.answering u).1 (hq ▸ List.mem_cons_self ..)
  have holdFree := h.holdFree (u := u) (fun k => by obtain ⟨st, ⟨r, rfl⟩, k⟩ := slotIn_unique hu k; cases k)
    (fun k => by obtain ⟨st, ⟨r, rfl⟩, r', k⟩ := slotIn_unique hu k; cases k)
  have issueFree := h.issueFree (u := u) (fun k => by obtain ⟨st, ⟨r, rfl⟩, k | k⟩ := slotIn_unique hu k <;> cases k)
  refine h.without slots (by rw [answer, hq]; exact List.sublist_cons_self ..) ?_ (answer ▸ nodup.1)
    (holds ▸ List.Sublist.refl _)
    (fun g hg _ => holds ▸ hg) (holds ▸ holdFree) (issue ▸ List.Sublist.refl _) (fun e he _ => issue ▸ he)
    (by simpa only [State.targets, issue] using issueFree) injected
  intro v hv hne
  rw [hq] at hv
  exact answer ▸ (List.mem_cons.1 hv).resolve_left hne

/-- The record of a hold leaves its queue (R57). -/
theorem State.PathSound.without_hold {s : State} (h : s.PathSound) {g : Hold} (hg : g ∈ s.holds) :
    (s.removeHold g.id).SoundBut g.tag := by
  have slot := h.held_of_mem hg
  have off : ∀ p : Stage → Prop, ¬ p .held → (∀ r, ¬ p (.heldResponse r)) → ¬ s.slotIn g.tag p := by
    intro p hb ha hp
    rcases slot with ⟨-, hs⟩ | ⟨-, hs⟩
    · obtain ⟨st, rfl, k⟩ := slotIn_unique hs hp
      exact hb k
    · obtain ⟨st, ⟨r, rfl⟩, k⟩ := slotIn_unique hs hp
      exact ha r k
  have answerFree := h.answerFree (off isAnswering (by simp [isAnswering]) (by simp [isAnswering]))
  have issueFree := h.issueFree (off isOutstanding (by simp [isOutstanding]) (by simp [isOutstanding]))
  refine h.without (fun _ _ => rfl) (List.Sublist.refl _) (fun _ hv _ => hv) answerFree List.filter_sublist ?_ ?_
    (List.Sublist.refl _) (fun _ he _ => he) issueFree rfl
  · intro k hk hne
    refine List.mem_filter.2 ⟨hk, decide_eq_true fun e => hne ?_⟩
    rw [List.inj_on_of_nodup_map h.holdIds hk hg e]
  · intro k hk e
    obtain ⟨hk, hid⟩ := List.mem_filter.1 hk
    rw [List.inj_on_of_nodup_map h.holdTags hk hg e] at hid
    simp at hid

/-- The oldest access leaves the issue list (R16). -/
theorem State.PathSound.without_issue {s t : State} (h : s.PathSound) {u : Tag} {m : MemRequest} {rest : List IssueEntry}
    (hi : s.issueList = ⟨.slot u, m⟩ :: rest) (slots : ∀ v, v ≠ u → t.slot v = s.slot v)
    (answer : t.answerQueue = s.answerQueue) (holds : t.holds = s.holds) (issue : t.issueList = rest)
    (injected : t.injected = s.injected) : t.SoundBut u := by
  have nodup := h.issueNodup
  rw [hi, List.map_cons, List.nodup_cons] at nodup
  have hu : s.slotIn u isOutstanding := (h.issued u).1 (by simp [hi])
  have off : ∀ p : Stage → Prop, ¬ p .issued → ¬ p .orphan → ¬ s.slotIn u p := by
    intro p hs ho hp
    obtain ⟨st, rfl | rfl, k⟩ := slotIn_unique hu hp
    · exact hs k
    · exact ho k
  have answerFree := h.answerFree (off isAnswering (by simp [isAnswering]) (by simp [isAnswering]))
  have holdFree := h.holdFree (off (· = .held) (by simp) (by simp))
    (off isHeldResponse (by simp [isHeldResponse]) (by simp [isHeldResponse]))
  refine h.without slots (answer ▸ List.Sublist.refl _) (fun v hv _ => answer ▸ hv) (answer ▸ answerFree)
    (holds ▸ List.Sublist.refl _) (fun g hg _ => holds ▸ hg) (holds ▸ holdFree)
    (by rw [issue, hi]; exact List.sublist_cons_self ..) ?_ (by simpa only [State.targets, issue] using nodup.1) injected
  intro e he hne
  rw [hi] at he
  rw [issue]
  refine (List.mem_cons.1 he).resolve_left ?_
  rintro rfl
  exact hne rfl

/-! ### Putting a slot on the list of its stage -/

/-- A slot that has become FREE is on no list. -/
theorem State.SoundBut.close_free {s : State} {u : Tag} (h : s.SoundBut u) (hu : s.slot u = none) : s.PathSound := by
  refine h.close (A := []) (H := []) (I := []) (fun _ _ => rfl) (by simp) (by simp) (by simp) rfl
    ⟨fun x hx => ?_, .inr ⟨rfl, not_slotIn_of_free hu _⟩, .inr ⟨rfl, not_slotIn_of_free hu _, not_slotIn_of_free hu _⟩,
      .inr ⟨rfl, not_slotIn_of_free hu _⟩⟩
  rw [hu] at hx
  cases hx

/-- A slot goes to PARKED or WAITING. -/
theorem State.SoundBut.putSlot {s : State} {u : Tag} {x : Transaction} (h : s.SoundBut u) (tag : x.request.tag = u)
    (stage : x.stage = .parked ∨ x.stage = .waiting) : (s.putSlot u x).PathSound := by
  have off : ∀ p : Stage → Prop, ¬ p .parked → ¬ p .waiting → ¬ (s.putSlot u x).slotIn u p := by
    intro p hp hw
    rw [slotIn_of_slot (slot_putSlot_self s u x)]
    rcases stage with hs | hs <;> rw [hs] <;> assumption
  refine h.close (A := []) (H := []) (I := []) (fun v hv => slot_putSlot_of_ne s x hv) (by simp) (by simp) (by simp) rfl
    ⟨fun y hy => ?_, .inr ⟨rfl, off _ (by simp [isAnswering]) (by simp [isAnswering])⟩,
      .inr ⟨rfl, off _ (by simp) (by simp), off _ (by simp [isHeldResponse]) (by simp [isHeldResponse])⟩,
      .inr ⟨rfl, off _ (by simp [isOutstanding]) (by simp [isOutstanding])⟩⟩
  rw [slot_putSlot_self, Option.some.injEq] at hy
  exact hy ▸ tag

/-- A slot answers (R20). -/
theorem State.SoundBut.answerSlot {s : State} {u : Tag} {x : Transaction} (h : s.SoundBut u) (tag : x.request.tag = u)
    (r : BusResponse) : (s.answerSlot u x r).PathSound := by
  have slot := slot_answerSlot_self s u x r
  refine h.close (A := [u]) (H := []) (I := []) (fun v hv => slot_answerSlot_of_ne s x r hv) rfl (by simp) (by simp) rfl
    ⟨fun y hy => ?_, .inl ⟨rfl, (slotIn_of_slot slot _).2 ⟨r, rfl⟩⟩, .inr ⟨rfl, ?_, ?_⟩, .inr ⟨rfl, ?_⟩⟩
  · rw [slot, Option.some.injEq] at hy
    exact hy ▸ tag
  all_goals simp [slotIn_of_slot slot, isHeldResponse, isOutstanding]

/-- A slot is held with a new record (R52): at point BEFORE as it stands, at point AFTER with its response. -/
theorem State.SoundBut.hold {s t : State} {u : Tag} {x : Transaction} {g : Hold} (h : s.SoundBut u)
    (transit : t.transit = s.transit.set u (some x)) (answer : t.answerQueue = s.answerQueue)
    (holds : t.holds = s.holds ++ [g]) (issue : t.issueList = s.issueList) (injected : t.injected = s.injected)
    (tag : x.request.tag = u) (gtag : g.tag = u) (fresh : g.id ∉ s.holds.map (·.id))
    (stage : g.point = .before ∧ x.stage = .held ∨ g.point = .after ∧ ∃ r, x.stage = .heldResponse r) : t.PathSound := by
  have slot : t.slot u = some x := slot_set_self transit
  refine h.close (A := []) (H := [g]) (I := []) (fun v hv => slot_set_of_ne transit hv) (by simp [answer]) holds
    (by simp [issue]) injected ⟨fun y hy => ?_, .inr ⟨rfl, ?_⟩, .inl ⟨g, rfl, gtag, fresh, ?_⟩, .inr ⟨rfl, ?_⟩⟩
  · rw [slot, Option.some.injEq] at hy
    exact hy ▸ tag
  all_goals
    simp only [slotIn_of_slot slot]
    rcases stage with ⟨hp, hs⟩ | ⟨hp, r, hs⟩ <;> simp [hp, hs, isAnswering, isHeldResponse, isOutstanding]

/-- A slot is granted the port (R14). -/
theorem State.SoundBut.grantPath {s : State} {u : Tag} {x : Transaction} (h : s.SoundBut u) (tag : x.request.tag = u) :
    (s.grantPath u x).PathSound := by
  have slot : (s.grantPath u x).slot u = some { x with stage := .issued } := slot_set_self rfl
  refine h.close (A := []) (H := []) (I := [⟨.slot u, requestDown x.request s.memTag⟩]) (fun v hv => slot_set_of_ne rfl hv)
    (by simp) (by simp) rfl rfl ⟨fun y hy => ?_, .inr ⟨rfl, ?_⟩, .inr ⟨rfl, ?_, ?_⟩, .inl ⟨_, rfl, ?_⟩⟩
  · rw [slot, Option.some.injEq] at hy
    exact hy ▸ tag
  all_goals simp [slotIn_of_slot slot, isAnswering, isHeldResponse, isOutstanding]

end Sys2Proof.Machine
end

-- ==== The path stays sound ====
section
/-! O12: every row keeps the queues and lists in agreement with the slots. -/

namespace Sys2Proof.Machine

/-! ### Fresh ids -/

/-- The search for an unused id fails only if each id it looks at is used. -/
theorem firstUnused_mem {next : Byte → Byte} {used : List Byte} {n : Nat} {id : Byte}
    (h : firstUnused next used n id ∈ used) : ∀ k ≤ n, next^[k] id ∈ used := by
  induction n generalizing id with
  | zero =>
    intro k hk
    rw [Nat.le_zero.1 hk]
    exact h
  | succ n ih =>
    rw [firstUnused] at h
    split at h
    · next hid =>
      intro k hk
      cases k with
      | zero => exact hid
      | succ k => exact ih h k (Nat.le_of_succ_le_succ hk)
    · next hid => exact absurd h hid

/-- With at least as many further ids to look at as ids in use, and none met twice, the search finds an unused one. -/
theorem firstUnused_not_mem {next : Byte → Byte} {used : List Byte} {n : Nat} {id : Byte} (room : used.length ≤ n)
    (apart : Set.InjOn (fun k => next^[k] id) {k | k ≤ n}) : firstUnused next used n id ∉ used := by
  intro h
  have sub : (List.range (n + 1)).map (fun k => next^[k] id) ⊆ used := by
    intro b hb
    obtain ⟨k, hk, rfl⟩ := List.mem_map.1 hb
    exact firstUnused_mem h k (Nat.le_of_lt_succ (List.mem_range.1 hk))
  have nodup : ((List.range (n + 1)).map fun k => next^[k] id).Nodup :=
    List.nodup_range.map_on fun i hi j hj e =>
      apart (Nat.le_of_lt_succ (List.mem_range.1 hi)) (Nat.le_of_lt_succ (List.mem_range.1 hj)) e
  have count := (nodup.subperm sub).length_le
  simp only [List.length_map, List.length_range] at count
  omega

theorem nextHold_iterate (k : Nat) (id : Byte) : nextHold^[k] id = id + BitVec.ofNat 8 k := by
  induction k generalizing id with
  | zero => simp
  | succ k ih =>
    rw [Function.iterate_succ_apply, ih, nextHold]
    bv_omega

/-- A new hold's id is the id of no record in the queue (R51). -/
theorem newHoldId_fresh {s : State} (room : s.holds.length < 4) : s.newHoldId ∉ s.holds.map (·.id) := by
  refine firstUnused_not_mem (by simp) fun i hi j hj e => ?_
  simp only [Set.mem_ofPred_eq, nextHold_iterate] at hi hj e
  bv_omega

/-- A new access's id is the id of no record in the queue (R103). -/
theorem newAccessId_fresh {s : State} (room : s.injected.length < 2) : s.newAccessId ∉ s.injected.map (·.id) := by
  have moves : ∀ id, nextAccess id ≠ id := by
    intro id
    unfold nextAccess
    split <;> bv_omega
  refine firstUnused_not_mem (by simp) fun i hi j hj e => ?_
  simp only [Set.mem_ofPred_eq] at hi hj e
  have : i = 0 ∨ i = 1 := by omega
  have : j = 0 ∨ j = 1 := by omega
  rcases ‹i = 0 ∨ i = 1› with rfl | rfl <;> rcases ‹j = 0 ∨ j = 1› with rfl | rfl
  · rfl
  · exact absurd e.symm (moves _)
  · exact absurd e (moves _)
  · rfl

/-! ### Creating holds -/

/-- What asking for a hold can do: a record is created with a fresh id, or the path is unchanged (R53, R54). -/
theorem askHold_cases (s : State) (g : Hold) :
    (s.holdAnswer = .created s.newHoldId ∧ s.newHoldId ∉ s.holds.map (·.id) ∧
      (s.askHold g).holds = s.holds ++ [{ g with id := s.newHoldId }]) ∨
    ((s.holdAnswer = .refused ∨ s.holdAnswer = .suppressed) ∧ (s.askHold g).holds = s.holds) := by
  unfold State.askHold
  cases ha : s.holdAnswer with
  | created id =>
    obtain ⟨-, room, rfl⟩ := holdAnswer_created ha
    exact .inl ⟨rfl, newHoldId_fresh room, rfl⟩
  | refused => exact .inr ⟨.inl rfl, rfl⟩
  | suppressed => exact .inr ⟨.inr rfl, rfl⟩

theorem askHold_transit (g : Hold) (s : State) :
    (s.askHold g).transit = s.transit ∧ (s.askHold g).answerQueue = s.answerQueue := by
  simpa [Piece.Same] using (askHold_keeps g s).same (p := .slots) (by decide)

/-- A hold that was not created leaves the path as it was. -/
theorem askHold_pathSame {s : State} {g : Hold} (h : (s.askHold g).holds = s.holds) : PathSame s (s.askHold g) :=
  ⟨(askHold_transit g s).1, (askHold_transit g s).2, h, (askHold_holdFrame g s).issueList, (askHold_holdFrame g s).injected⟩

/-- A disposition carried out on a slot that is on no list (R10, R12). -/
theorem State.SoundBut.carryOut {s : State} {x : Transaction} (h : s.SoundBut x.request.tag) (mayHold : Bool) :
    (s.carryOut mayHold x).PathSound := by
  unfold State.carryOut
  split
  · next e b p _ =>
    split
    · rcases askHold_cases s (beforeHold x e b p) with ⟨ha, fresh, holds⟩ | ⟨ha, holds⟩
      · rw [ha]
        refine h.hold (u := x.request.tag) (x := { x with stage := .held })
          (g := { beforeHold x e b p with id := s.newHoldId }) ?_ ?_ holds ?_ ?_ rfl rfl fresh
          (.inl ⟨rfl, rfl⟩)
        · simp [askHold_transit, HoldAnswer.stage]
        · simp [askHold_transit]
        · exact (askHold_holdFrame _ s).issueList
        · exact (askHold_holdFrame _ s).injected
      · have stage : s.holdAnswer.stage .held .waiting = .waiting := by rcases ha with ha | ha <;> rw [ha] <;> rfl
        rw [stage]
        exact (h.of_same (askHold_pathSame holds)).putSlot rfl (.inr rfl)
    · exact h.putSlot rfl (.inr rfl)
  · exact h.putSlot rfl (.inr rfl)

theorem State.SoundBut.enter {s : State} {x : Transaction} (h : s.SoundBut x.request.tag) : (s.enter x).PathSound := by
  unfold State.enter
  split
  · exact h.putSlot rfl (.inl rfl)
  · exact h.carryOut true

/-- A response is asked to be held (R18). -/
theorem State.SoundBut.holdResponse {s : State} {u : Tag} {x : Transaction} (h : s.SoundBut u) (tag : x.request.tag = u)
    (r : BusResponse) (e : EntryIndex) (b : Nat) (p : Policy) :
    (s.holdResponse u x r (afterHold x r e b p)).PathSound := by
  unfold State.holdResponse
  rcases askHold_cases s (afterHold x r e b p) with ⟨ha, fresh, holds⟩ | ⟨ha, holds⟩
  · rw [ha]
    refine h.hold (u := u) (x := { x with stage := .heldResponse r })
      (g := { afterHold x r e b p with id := s.newHoldId }) ?_ ?_ holds ?_ ?_ tag tag fresh
      (.inr ⟨rfl, r, rfl⟩)
    · simp [askHold_transit]
    · simp [askHold_transit]
    · exact (askHold_holdFrame _ s).issueList
    · exact (askHold_holdFrame _ s).injected
  · have answered := (h.of_same (askHold_pathSame holds)).answerSlot tag r
    rcases ha with ha | ha <;> rw [ha] <;> exact answered

/-! ### Ending holds -/

theorem LogFrame.pathSame {s t : State} (h : LogFrame s t) : PathSame s t :=
  ⟨h.transit, h.answerQueue, h.holds, h.issueList, h.injected⟩

theorem unparkOne_sound {s : State} (h : s.PathSound) (mayHold : Bool) (t : Tag) : (s.unparkOne mayHold t).PathSound := by
  unfold State.unparkOne
  split
  · exact h
  · next x hx =>
    split
    · next hp =>
      have tag := h.tags t x hx
      subst tag
      have idle := h.without_idle (u := x.request.tag) fun y hy => by
        rw [hx, Option.some.injEq] at hy
        exact .inl (hy ▸ hp.1)
      exact (idle.carryOut mayHold).of_same (appendAll_logFrame _ _).pathSame
    · exact h

theorem unparkPass_sound {s : State} (h : s.PathSound) (mayHold : Bool) : (s.unparkPass mayHold).PathSound := by
  unfold State.unparkPass
  generalize s.parkedTags = ts
  induction ts generalizing s with
  | nil => exact h
  | cons t ts ih => exact ih (unparkOne_sound h mayHold t)

/-- The slot of a record moves on as the record has left the queue (R57). -/
theorem deliver_sound {s : State} (h : s.PathSound) {g : Hold} (hg : g ∈ s.holds) (proceeds : Bool) :
    ((s.removeHold g.id).deliver proceeds g).PathSound := by
  have rest := h.without_hold hg
  have slot : ∃ x, s.slot g.tag = some x := by
    rcases h.held_of_mem hg with ⟨-, x, hx, -⟩ | ⟨-, x, hx, -⟩ <;> exact ⟨x, hx⟩
  obtain ⟨x, hx⟩ := slot
  have tag := h.tags g.tag x hx
  have hx' : (s.removeHold g.id).slot g.tag = some x := hx
  unfold State.deliver
  simp only [hx']
  split
  · split
    · exact rest.putSlot tag (.inr rfl)
    · exact rest.answerSlot tag _
  · exact rest.answerSlot tag _

theorem endHold_sound {s : State} (h : s.PathSound) {g : Hold} (hg : g ∈ s.holds) (mayHold proceeds expiry : Bool)
    (o : TraceOutcome) : (s.endHold mayHold proceeds expiry o g).PathSound := by
  have delivered := (deliver_sound h hg proceeds).of_same
    ((append_logFrame _ (g.endNote (some g.id) o)).trans (postIf_logFrame expiry .expiry g.id _)).pathSame
  unfold State.endHold
  split
  · exact unparkPass_sound delivered mayHold
  · exact delivered

theorem mem_of_dueHold {s : State} {g : Hold} (h : s.dueHold = some g) : g ∈ s.holds := List.mem_of_find?_eq_some h

theorem mem_of_findHold {s : State} {id : Byte} {g : Hold} (h : s.findHold id = some g) : g ∈ s.holds :=
  List.mem_of_find?_eq_some h

theorem expireNext_sound {s : State} (h : s.PathSound) : s.expireNext.PathSound := by
  unfold State.expireNext State.expire
  split
  · exact h
  · next g hg => split <;> exact endHold_sound h (mem_of_dueHold hg) _ _ _ _

/-- Without new holds, the queue loses the record of the hold that ends and no other (R72). -/
theorem unparkOne_holds (s : State) (t : Tag) : (s.unparkOne false t).holds = s.holds := by
  unfold State.unparkOne State.carryOut
  split
  · rfl
  · split
    · simp only [Bool.false_eq_true, if_false, appendAll_nil]
      split <;> rfl
    · rfl

theorem unparkPass_holds (s : State) : (s.unparkPass false).holds = s.holds := by
  unfold State.unparkPass
  generalize s.parkedTags = ts
  induction ts generalizing s with
  | nil => rfl
  | cons t ts ih => exact (ih _).trans (unparkOne_holds s t)

theorem deliver_holds (s : State) (proceeds : Bool) (g : Hold) : (s.deliver proceeds g).holds = s.holds := by
  unfold State.deliver
  split
  · rfl
  · split
    · split <;> rfl
    · rfl

theorem endHold_holds (s : State) (g : Hold) (proceeds expiry : Bool) (o : TraceOutcome) :
    (s.endHold false proceeds expiry o g).holds = s.holds.filter fun k => decide (k.id ≠ g.id) := by
  unfold State.endHold
  split
  · simp [unparkPass_holds, deliver_holds]
  · simp [deliver_holds]

/-- The records end one after another, oldest first, and each is the first of those that are left: what every ending keeps
they keep together (R72). -/
theorem endHolds_keeps {P : State → Prop}
    (ending : ∀ s g, s.PathSound → g ∈ s.holds → P s → P (s.endHold false true false .cleared g)) {s : State}
    (h : s.PathSound) (hP : P s) :
    (s.holds.foldl (State.endHold false true false .cleared) s).PathSound ∧
      P (s.holds.foldl (State.endHold false true false .cleared) s) := by
  generalize hl : s.holds = gs
  induction gs generalizing s with
  | nil => exact ⟨h, hP⟩
  | cons g gs ih =>
    have hg : g ∈ s.holds := hl ▸ List.mem_cons_self ..
    refine ih (endHold_sound h hg _ _ _ _) (ending s g h hg hP) ?_
    have ids := h.holdIds
    rw [hl, List.map_cons, List.nodup_cons] at ids
    rw [endHold_holds, hl, List.filter_cons_of_neg (by simp), List.filter_eq_self]
    intro k hk
    have : k.id ≠ g.id := fun e => ids.1 (e ▸ List.mem_map_of_mem hk)
    simpa using this

theorem clearHolds_sound {s : State} (h : s.PathSound) : s.clearHolds.PathSound := by
  have ended := (endHolds_keeps (P := fun _ => True) (fun _ _ _ _ _ => trivial) h trivial).1
  unfold State.clearHolds
  generalize s.holds.foldl (State.endHold false true false .cleared) s = u at ended ⊢
  exact ended.of_same ⟨rfl, rfl, rfl, rfl, rfl⟩

/-! ### Records that change at their place -/

/-- Slots that keep their stages, and records that keep their ids, tags and points. -/
theorem State.PathSound.of_edits {s t : State} (h : s.PathSound) (tags : ∀ v x, t.slot v = some x → x.request.tag = v)
    (slots : ∀ v p, t.slotIn v p ↔ s.slotIn v p) (answer : t.answerQueue = s.answerQueue) (f : Hold → Hold)
    (holds : t.holds = s.holds.map f)
    (edit : ∀ g ∈ s.holds, (f g).id = g.id ∧ (f g).tag = g.tag ∧ (f g).point = g.point)
    (issue : t.issueList = s.issueList) (injected : t.injected = s.injected) : t.PathSound := by
  have ids : t.holds.map (·.id) = s.holds.map (·.id) := by
    rw [holds, List.map_map]
    exact List.map_congr_left fun g hg => (edit g hg).1
  have holdTags : t.holds.map (·.tag) = s.holds.map (·.tag) := by
    rw [holds, List.map_map]
    exact List.map_congr_left fun g hg => (edit g hg).2.1
  have point : ∀ v p, (∃ g ∈ t.holds, g.tag = v ∧ g.point = p) ↔ ∃ g ∈ s.holds, g.tag = v ∧ g.point = p := by
    intro v p
    simp only [holds, List.mem_map, exists_exists_and_eq_and]
    refine exists_congr fun g => and_congr_right fun hg => ?_
    rw [(edit g hg).2.1, (edit g hg).2.2]
  exact
    { tags := tags
      answerNodup := answer ▸ h.answerNodup
      answering := fun v => by rw [answer, slots]; exact h.answering v
      holdIds := ids ▸ h.holdIds
      holdTags := holdTags ▸ h.holdTags
      before := fun v => by rw [point, slots]; exact h.before v
      after := fun v => by rw [point, slots]; exact h.after v
      issueNodup := issue ▸ h.issueNodup
      issued := fun v => by rw [issue, slots]; exact h.issued v
      accessIds := injected ▸ h.accessIds
      injected := fun id => by rw [issue, injected]; exact h.injected id }

theorem stepBudgets_sound {s : State} (h : s.PathSound) : s.stepBudgets.PathSound := by
  refine h.of_edits (s := s) h.tags (fun _ _ => Iff.rfl) rfl
    (fun g => if s.budgetDue then { g with remaining := g.remaining - 1 } else g) ?_ (fun g _ => ?_) rfl rfl
  · simp only [State.stepBudgets]
    split <;> simp
  · split <;> exact ⟨rfl, rfl, rfl⟩

/-- A record is changed at its place (R49). -/
theorem updateHold_sound {s : State} (h : s.PathSound) {g k : Hold} (hg : g ∈ s.holds)
    (edit : k.id = g.id ∧ k.tag = g.tag ∧ k.point = g.point) : (s.updateHold k).PathSound := by
  refine h.of_edits (s := s) h.tags (fun _ _ => Iff.rfl) rfl (fun x => if x.id = k.id then k else x) rfl
    (fun x hx => ?_) rfl rfl
  split
  · next e =>
    rw [List.inj_on_of_nodup_map h.holdIds hx hg (e.trans edit.1)]
    exact edit
  · exact ⟨rfl, rfl, rfl⟩

/-- What amending a slot's write data leaves of it (R64). -/
theorem slot_amendSlot {s : State} {t : Tag} {d : List Byte} {v : Tag} {y : Transaction}
    (h : (s.amendSlot t d).slot v = some y) :
    ∃ x, s.slot v = some x ∧ y.stage = x.stage ∧ y.position = x.position ∧ y.disposition = x.disposition ∧
      y.request = { x.request with data := y.request.data } := by
  unfold State.amendSlot at h
  split at h
  · exact ⟨y, h, rfl, rfl, rfl, rfl⟩
  · next x hx =>
    by_cases hv : v = t
    · subst hv
      rw [slot_putSlot_self, Option.some.injEq] at h
      exact h ▸ ⟨x, hx, rfl, rfl, rfl, rfl⟩
    · rw [slot_putSlot_of_ne s _ hv] at h
      exact ⟨y, h, rfl, rfl, rfl, rfl⟩

theorem slotIn_amendSlot (s : State) (t : Tag) (d : List Byte) (v : Tag) (p : Stage → Prop) :
    (s.amendSlot t d).slotIn v p ↔ s.slotIn v p := by
  constructor
  · rintro ⟨y, hy, py⟩
    obtain ⟨x, hx, hs, -⟩ := slot_amendSlot hy
    exact ⟨x, hx, hs ▸ py⟩
  · rintro ⟨x, hx, px⟩
    unfold State.amendSlot
    split
    · exact ⟨x, hx, px⟩
    · next z hz =>
      by_cases hv : v = t
      · subst hv
        rw [hz, Option.some.injEq] at hx
        exact ⟨_, slot_putSlot_self s v _, by rw [← hx] at px; exact px⟩
      · exact ⟨x, (slot_putSlot_of_ne s _ hv).trans hx, px⟩

theorem amendSlot_sound {s : State} (h : s.PathSound) (t : Tag) (d : List Byte) : (s.amendSlot t d).PathSound := by
  have same : (s.amendSlot t d).answerQueue = s.answerQueue ∧ (s.amendSlot t d).holds = s.holds ∧
      (s.amendSlot t d).issueList = s.issueList ∧ (s.amendSlot t d).injected = s.injected := by
    unfold State.amendSlot
    split <;> exact ⟨rfl, rfl, rfl, rfl⟩
  refine h.of_edits (fun v y hy => ?_) (slotIn_amendSlot s t d) same.1 id (by rw [List.map_id]; exact same.2.1)
    (fun _ _ => ⟨rfl, rfl, rfl⟩) same.2.2.1 same.2.2.2
  obtain ⟨x, hx, -, -, -, hr⟩ := slot_amendSlot hy
  rw [hr]
  exact h.tags v x hx

theorem withHold_sound {s : State} {f : Hold → State → Reply} (h : s.PathSound) (id : Byte)
    (hf : ∀ g ∈ s.holds, (f g s).state.PathSound) : (withHold id f s).state.PathSound := by
  unfold withHold
  split
  · exact h
  · next g hg => exact hf g (mem_of_findHold hg)

theorem amendBody_sound {s : State} (h : s.PathSound) (id n : Byte) (d : List Byte) :
    (amendBody id n d s).state.PathSound := by
  unfold amendBody
  split
  · refine withHold_sound h id fun g hg => ?_
    have updated : (s.updateHold (g.amendWith d)).PathSound := updateHold_sound h hg ⟨rfl, rfl, rfl⟩
    unfold amendRecord State.amendHold
    split
    · exact h
    · split
      · exact h
      · unfold done
        split
        · exact amendSlot_sound updated g.tag d
        · exact updated
  · exact h

theorem extendBody_sound {s : State} (h : s.PathSound) (id : Byte) (u : Half) : (extendBody id u s).state.PathSound := by
  unfold extendBody
  split
  · refine withHold_sound h id fun g hg => ?_
    unfold extendRecord
    split
    · exact h
    · exact updateHold_sound h hg ⟨rfl, rfl, rfl⟩
  · exact h

/-! ### Injected accesses -/

/-- The injected queue and its accesses change, and no slot's. -/
theorem State.PathSound.of_accesses {s t : State} (h : s.PathSound) (transit : t.transit = s.transit)
    (answer : t.answerQueue = s.answerQueue) (holds : t.holds = s.holds) (issueNodup : t.targets.Nodup)
    (slots : ∀ v, IssueTarget.slot v ∈ t.targets ↔ IssueTarget.slot v ∈ s.targets)
    (accessIds : (t.injected.map (·.id)).Nodup)
    (injected : ∀ id, IssueTarget.injected id ∈ t.targets ↔ ∃ a ∈ t.injected, a.id = id ∧ a.state = .issued) :
    t.PathSound := by
  have slot : ∀ v, t.slot v = s.slot v := fun v => by simp [State.slot, transit]
  exact
    { tags := fun v x hx => h.tags v x ((slot v).symm.trans hx)
      answerNodup := answer ▸ h.answerNodup
      answering := fun v => by rw [answer, slotIn_congr (slot v)]; exact h.answering v
      holdIds := holds ▸ h.holdIds
      holdTags := holds ▸ h.holdTags
      before := fun v => by rw [holds, slotIn_congr (slot v)]; exact h.before v
      after := fun v => by rw [holds, slotIn_congr (slot v)]; exact h.after v
      issueNodup := issueNodup
      issued := fun v => by rw [slotIn_congr (slot v)]; exact (slots v).trans (h.issued v)
      accessIds := accessIds
      injected := injected }

/-- Records that change at their place keep their ids. -/
theorem map_access_ids (l : List Access) (id : Byte) (f : Access → Access) (hf : ∀ a, (f a).id = a.id) :
    (l.map fun a => if a.id = id then f a else a).map (·.id) = l.map (·.id) := by
  rw [List.map_map]
  refine List.map_congr_left fun a _ => ?_
  simp only [Function.comp_apply]
  split
  · exact hf a
  · rfl

/-- After a change of the record with an id, which records are issued. -/
theorem exists_issued_map {l : List Access} {id : Byte} {f : Access → Access} (hf : ∀ a, (f a).id = a.id) (i : Byte) :
    (∃ a ∈ l.map fun a => if a.id = id then f a else a, a.id = i ∧ a.state = .issued) ↔
      ∃ a ∈ l, a.id = i ∧ (if i = id then (f a).state = .issued else a.state = .issued) := by
  simp only [List.mem_map, exists_exists_and_eq_and]
  refine exists_congr fun a => and_congr_right fun _ => ?_
  by_cases ha : a.id = id
  · simp only [ha, if_true, hf]
    constructor <;> rintro ⟨rfl, hs⟩ <;> simp_all
  · simp only [ha, if_false]
    constructor <;> rintro ⟨rfl, hs⟩ <;> simp_all

theorem grantInjected_sound {s : State} (h : s.PathSound) {a : Access} (ha : s.injectedCandidate = some a) :
    (s.grantInjected a).PathSound := by
  have mem : a ∈ s.injected := List.mem_of_find?_eq_some ha
  have waiting : a.state = .waiting := by simpa using List.find?_some ha
  have free : IssueTarget.injected a.id ∉ s.targets := by
    intro hm
    obtain ⟨b, hb, hid, hs⟩ := (h.injected a.id).1 hm
    rw [List.inj_on_of_nodup_map h.accessIds hb mem hid, waiting] at hs
    cases hs
  have targets : (s.grantInjected a).targets = s.targets ++ [.injected a.id] := by
    simp [State.targets, State.grantInjected]
  have ids : (s.grantInjected a).injected.map (·.id) = s.injected.map (·.id) :=
    map_access_ids s.injected a.id (fun b => { b with state := .issued }) fun _ => rfl
  refine h.of_accesses (s := s) rfl rfl rfl ?_ (fun v => by simp [targets]) (ids ▸ h.accessIds) fun i => ?_
  · rw [targets, ← List.concat_eq_append]
    exact List.Nodup.concat free h.issueNodup
  · rw [targets, List.mem_append, List.mem_singleton]
    refine Iff.trans ?_ (exists_issued_map (f := fun b => { b with state := .issued }) (fun _ => rfl) i).symm
    by_cases hi : i = a.id
    · subst hi
      simp only [or_true, if_true, and_true, true_iff]
      exact ⟨a, mem, rfl⟩
    · simp only [hi, if_false, IssueTarget.injected.injEq, or_false]
      exact h.injected i

theorem finish_id (ret : MemReturn) (a : Access) : (a.finish ret).id = a.id := by
  unfold Access.finish
  split <;> rfl

theorem finish_state (ret : MemReturn) (a : Access) : (a.finish ret).state ≠ .issued := by
  unfold Access.finish
  split <;> simp

/-- The record at the head of the issue list is finished (R109). -/
theorem returnToAccess_sound {s : State} (h : s.PathSound) {id : Byte} {m : MemRequest} {rest : List IssueEntry}
    (hi : s.issueList = ⟨.injected id, m⟩ :: rest) (g : Nat) (ret : MemReturn) :
    ((s.putIssue rest).returnToAccess g id ret).PathSound := by
  have targets : s.targets = .injected id :: rest.map (·.target) := by simp [State.targets, hi]
  have nodup : s.targets.Nodup := h.issueNodup
  rw [targets, List.nodup_cons] at nodup
  refine h.of_accesses (s := s) rfl rfl rfl nodup.2 (fun v => ?_) ?_ fun i => ?_
  · rw [targets]
    simp [State.targets, State.returnToAccess, State.updateAccess, State.putIssue]
  · exact (map_access_ids s.injected id _ fun a => finish_id _ a) ▸ h.accessIds
  · refine Iff.trans ?_ (exists_issued_map (fun a => finish_id _ a) i).symm
    have old := h.injected i
    change IssueTarget.injected i ∈ s.targets ↔ _ at old
    rw [targets, List.mem_cons] at old
    change IssueTarget.injected i ∈ rest.map (·.target) ↔ _
    by_cases e : i = id
    · subst e
      simp only [if_true, finish_state, and_false, exists_false, iff_false]
      exact nodup.1
    · simpa [e, State.putIssue] using old

theorem inject_sound {s : State} (h : s.PathSound) (room : s.injected.length < 2) (k : AccessKind) (a : Word) (z : Size)
    (d : List Byte) : (s.inject k a z d).PathSound := by
  refine h.of_accesses (s := s) rfl rfl rfl h.issueNodup (fun _ => Iff.rfl) ?_ fun i => ?_
  · have ids : (s.inject k a z d).injected.map (·.id) = (s.injected.map (·.id)).concat s.newAccessId := by
      simp [State.inject, newAccess]
    exact ids ▸ List.Nodup.concat (newAccessId_fresh room) h.accessIds
  · refine Iff.trans (h.injected i) ?_
    simp [State.inject, or_and_right, exists_or, newAccess]

theorem injectBody_sound {s : State} (h : s.PathSound) (k : AccessKind) (a : Word) (z : Byte) (d : List Byte) :
    (injectBody k a z d s).state.PathSound := by
  unfold injectBody
  split
  · exact h
  · repeat' split
    · exact h
    · exact h
    · exact h
    · next room _ => exact inject_sound h (Nat.lt_of_not_le room) _ _ _ _

/-- A finished record leaves the queue (R110). -/
theorem removeAccess_sound {s : State} (h : s.PathSound) {a : Access} (ha : a ∈ s.injected) (hs : a.state ≠ .issued) :
    (s.removeAccess a.id).PathSound := by
  refine h.of_accesses (s := s) rfl rfl rfl h.issueNodup (fun _ => Iff.rfl)
    (h.accessIds.sublist (List.filter_sublist.map _)) fun i => ?_
  refine Iff.trans (h.injected i) ?_
  simp only [State.removeAccess, List.mem_filter, and_assoc]
  refine exists_congr fun b => and_congr_right fun hb => ?_
  refine ⟨fun ⟨e, hi⟩ => ⟨decide_eq_true fun e' => ?_, e, hi⟩, fun ⟨_, e, hi⟩ => ⟨e, hi⟩⟩
  rw [List.inj_on_of_nodup_map h.accessIds hb ha e'] at hi
  exact hs hi

theorem accessResultBody_sound {s : State} (h : s.PathSound) (id : Byte) : (accessResultBody id s).state.PathSound := by
  unfold accessResultBody
  split
  · exact h
  · next a ha =>
    have mem : a ∈ s.injected := List.mem_of_find?_eq_some ha
    have hid : a.id = id := by simpa using List.find?_some ha
    split
    · exact h
    · exact h
    all_goals
      next hs =>
      subst hid
      exact removeAccess_sound h mem (by simp [hs])

/-! ### The path's events -/

theorem judged_pathSame (r : Request) (s : State) : PathSame s (s.judged r) := ⟨rfl, rfl, rfl, rfl, rfl⟩

/-- An accepted request takes a slot that was FREE (R5, R6). -/
theorem arrived_sound {s t : State} {r : Request} (h : s.PathSound) (free : s.slot r.tag = none) (ha : Arrived s r t) :
    t.PathSound := by
  have rest : s.SoundBut r.tag := h.without_idle fun x hx => by rw [free] at hx; cases hx
  have judged : (s.judged r).SoundBut r.tag := rest.of_same (judged_pathSame r s)
  cases ha with
  | wrong _ =>
    have accepted : s.accepted.SoundBut r.tag := rest.of_same ⟨rfl, rfl, rfl, rfl, rfl⟩
    exact (accepted.answerSlot (x := s.newTransaction r none .waiting) rfl _).of_same (appendAll_logFrame _ _).pathSame
  | answered ns _ =>
    have stored : ∀ m, ((s.judged r).putStore m).SoundBut r.tag := fun m => judged.of_same ⟨rfl, rfl, rfl, rfl, rfl⟩
    exact ((stored _).answerSlot (x := s.entrant r) rfl _).of_same (appendAll_logFrame ns _).pathSame
  | entered ns => exact (State.SoundBut.enter (x := s.entrant r) judged).of_same (appendAll_logFrame ns _).pathSame

theorem takeResponse_sound {s : State} (h : s.PathSound) : s.takeResponse.PathSound := by
  unfold State.takeResponse
  split
  · exact h
  · next u q hq =>
    have rest : State.SoundBut u { s with transit := s.transit.set u none, answerQueue := q } :=
      h.without_answer hq (fun v hv => slot_set_of_ne rfl hv) rfl rfl rfl rfl
    exact rest.close_free (slot_set_self (s := s) rfl)

theorem granted_sound {s t : State} (h : s.PathSound) (hg : Granted s t) : t.PathSound := by
  cases hg with
  | none _ => exact h
  | @path u x _ hu hx _ =>
    obtain ⟨y, hy, waiting⟩ := (isWaiting_iff s u).1 (pathCandidate_least hu).1
    have rest : s.SoundBut u := h.without_idle fun z hz => by
      rw [hy, Option.some.injEq] at hz
      exact .inr (hz ▸ waiting)
    exact rest.grantPath (h.tags u x hx)
  | injected _ ha _ => exact grantInjected_sound h ha

theorem lateState_pathSame (x : Transaction) (ret : MemReturn) (s : State) : PathSame s (s.lateState x ret) := by
  unfold State.lateState
  split <;> exact ⟨rfl, rfl, rfl, rfl, rfl⟩

theorem slotReturned_sound {s u : State} {t : Tag} {x : Transaction} {ret : MemReturn} (h : s.SoundBut t)
    (tag : x.request.tag = t) (hr : SlotReturned s t x ret u) : u.PathSound := by
  have late := h.of_same (lateState_pathSame x ret s)
  cases hr with
  | answered resp ns => exact (late.answerSlot tag resp).of_same (appendAll_logFrame ns _).pathSame
  | asked e b p ns => exact (late.holdResponse tag _ e b p).of_same (appendAll_logFrame ns _).pathSame

theorem returned_sound {s t : State} {ret : MemReturn} (h : s.PathSound) (hr : Returned s ret t) : t.PathSound := by
  cases hr with
  | none _ => exact h
  | injected hi => exact returnToAccess_sound h hi _ ret
  | @orphan u m rest x hi _ _ =>
    exact (h.without_issue (t := (s.putIssue rest).freeSlot u) hi (fun v hv => slot_freeSlot_of_ne (s.putIssue rest) hv)
      rfl rfl rfl rfl).close_free (slot_freeSlot_self _ u)
  | @slot u m rest x _ hi hx _ hu =>
    exact slotReturned_sound (h.without_issue (t := s.putIssue rest) hi (fun _ _ => rfl) rfl rfl rfl rfl) (h.tags u x hx) hu
  | @stray u m rest hi hx =>
    obtain ⟨x, hs, ho⟩ := (h.issued u).1 (by simp [hi])
    exact absurd ho (by simpa [not_or] using hx x hs)

/-! ### Requester reset and power-on reset -/

theorem requesterReset_slot (s : State) (v : Tag) : s.requesterReset.slot v = resetSlot (s.slot v) := by
  simp [State.requesterReset, State.slot]

theorem resetSlot_eq_some_iff {o : Option Transaction} {y : Transaction} :
    resetSlot o = some y ↔ ∃ x, o = some x ∧ isOutstanding x.stage ∧ y = { x with stage := .orphan } := by
  unfold resetSlot isOutstanding
  cases o with
  | none => simp
  | some x => cases hs : x.stage <;> simp [hs, eq_comm]

/-- After a requester reset the slots with an access outstanding are ORPHAN, and no slot has another stage (R23). -/
theorem requesterReset_slotIn (s : State) (v : Tag) (p : Stage → Prop) :
    s.requesterReset.slotIn v p ↔ s.slotIn v isOutstanding ∧ p .orphan := by
  simp only [State.slotIn, requesterReset_slot, resetSlot_eq_some_iff]
  constructor
  · rintro ⟨y, ⟨x, hx, ho, rfl⟩, hp⟩
    exact ⟨⟨x, hx, ho⟩, hp⟩
  · rintro ⟨⟨x, hx, ho⟩, hp⟩
    exact ⟨_, ⟨x, hx, ho, rfl⟩, hp⟩

theorem requesterReset_issue (s : State) : s.requesterReset.issueList = s.issueList ∧ s.requesterReset.injected = s.injected :=
  ⟨(requesterReset_keeps s).same (p := .issue) (by decide), (requesterReset_keeps s).same (p := .injected) (by decide)⟩

theorem requesterReset_sound {s : State} (h : s.PathSound) : s.requesterReset.PathSound := by
  obtain ⟨issue, injected⟩ := requesterReset_issue s
  have noHold : ∀ v p, ¬ ∃ g ∈ s.requesterReset.holds, g.tag = v ∧ g.point = p := by
    rintro v p ⟨g, hg, -⟩
    cases hg
  constructor
  case tags =>
    intro v y hy
    rw [requesterReset_slot, resetSlot_eq_some_iff] at hy
    obtain ⟨x, hx, -, rfl⟩ := hy
    exact h.tags v x hx
  case answerNodup => exact List.nodup_nil
  case answering =>
    intro v
    rw [requesterReset_slotIn]
    exact ⟨fun hm => absurd hm List.not_mem_nil, fun ⟨_, r, hr⟩ => by cases hr⟩
  case holdIds => exact List.nodup_nil
  case holdTags => exact List.nodup_nil
  case before =>
    intro v
    rw [requesterReset_slotIn]
    exact ⟨fun hg => absurd hg (noHold v _), fun ⟨_, hr⟩ => by cases hr⟩
  case after =>
    intro v
    rw [requesterReset_slotIn]
    exact ⟨fun hg => absurd hg (noHold v _), fun ⟨_, r, hr⟩ => by cases hr⟩
  case issueNodup => rw [issue]; exact h.issueNodup
  case issued =>
    intro v
    rw [requesterReset_slotIn, issue]
    exact (h.issued v).trans ⟨fun ho => ⟨ho, .inr rfl⟩, fun ⟨ho, _⟩ => ho⟩
  case accessIds => rw [injected]; exact h.accessIds
  case injected => rw [issue, injected]; exact h.injected

/-- A path on which nothing is under way. -/
theorem sound_of_empty {s : State} (slots : ∀ v, s.slot v = none) (answer : s.answerQueue = []) (holds : s.holds = [])
    (issue : s.issueList = []) (injected : s.injected = []) : s.PathSound := by
  have off : ∀ v p, ¬ s.slotIn v p := fun v p => not_slotIn_of_free (slots v) p
  constructor <;> simp [slots, off, answer, holds, issue, injected]

theorem inReset_slot (por l : Bool) (s : State) (v : Tag) : (s.inReset por l).slot v = none := by
  simp [State.slot, State.inReset, State.powerOn, State.reset]

theorem inReset_sound (por l : Bool) (s : State) : (s.inReset por l).PathSound :=
  sound_of_empty (inReset_slot por l s) rfl rfl rfl rfl

/-! ### Every step -/

/-- The pieces that the path's soundness depends on. -/
def pathPieces : List Piece := [.slots, .holds, .issue, .injected]

theorem pathSound_dependsOn : DependsOn pathPieces State.PathSound := by
  intro s t same h
  have slots := same .slots (by decide)
  have holds := same .holds (by decide)
  simp only [Piece.Same, Prod.mk.injEq] at slots holds
  exact h.of_same ⟨slots.1, slots.2, holds.1, same .issue (by decide), same .injected (by decide)⟩

theorem pathSound_kept : Kept pathPieces State.PathSound where
  depends := pathSound_dependsOn
  queue := by decide
  inReset := inReset_sound
  present r s h := pathSound_dependsOn.of_keeps (leavePresented_keeps r s) (by decide) h
  arrive r s t h free ha := arrived_sound h free ha
  due c f hf hm s h := by
    cases c <;> cases hf
    case budgetStep => exact stepBudgets_sound h
    case holdExpiry => exact expireNext_sound h
    all_goals exact absurd hm (by decide)
  event c f hf hm s h := by
    cases c <;> cases hf
    case responseTaken => exact takeResponse_sound h
    case memoryPortGrant => exact granted_sound h (granted s)
    case memoryReturn r => exact returned_sound h (returned s r)
    case rqrstInAsserted =>
      unfold State.assertRqrstIn
      split
      · exact h
      · exact (requesterReset_sound h).of_same ⟨rfl, rfl, rfl, rfl, rfl⟩
    case clearUnitHolds =>
      unfold clearingEffect
      split
      · exact (clearHolds_sound h).of_same ⟨rfl, rfl, rfl, rfl, rfl⟩
      · exact h
    all_goals exact absurd hm Bool.false_ne_true
  command c k body hk hm s h := by
    cases c <;> cases hk
    case release id => exact withHold_sound h id fun g hg => endHold_sound h hg _ _ _ _
    case amend id n d => exact amendBody_sound h id n d
    case fail id => exact withHold_sound h id fun g hg => endHold_sound h hg _ _ _ _
    case extend id u => exact extendBody_sound h id u
    case peek a z => exact injectBody_sound h .peek a z []
    case poke a z d => exact injectBody_sound h .poke a z d
    case accessResult id => exact accessResultBody_sound h id
    case resetRequester =>
      unfold resetRequesterBody State.startPulse done
      split
      · exact h.of_same ⟨rfl, rfl, rfl, rfl, rfl⟩
      · exact (requesterReset_sound h).of_same ⟨rfl, rfl, rfl, rfl, rfl⟩
    all_goals exact absurd hm Bool.false_ne_true

/-- Settles O12: each row moves a slot from the list of its old stage to the list of its new one. -/
theorem everyStepKeepsQueuesAndSlotsInAgreement : Obligations.EveryStepKeepsQueuesAndSlotsInAgreement :=
  fun _ _ h ht => pathSound_kept.step h ht

end Sys2Proof.Machine
end

-- ==== The parking order ====
section
/-! O13: what a row does to the slots that are PARKED or HELD. Rows but an arrival and the end of a BEFORE hold move a slot
that blocks nothing; an arrival has the last position, so it blocks nothing that is there; and the unparking pass looks at the
PARKED slots in the order of their positions, so what it leaves behind it stays decided (R9, R11). -/

namespace Sys2Proof.Machine

/-! ### What blocks a request -/

/-- What blocks a request at a position does not depend on a slot that is not an earlier PARKED or HELD one. -/
theorem blocked_eq_of_off {s t : State} {u : Tag} {p : Nat} (r : Request) (slots : ∀ v, v ≠ u → t.slot v = s.slot v)
    (hs : ∀ x, s.slot u = some x → x.blocks = true → p ≤ x.position)
    (ht : ∀ x, t.slot u = some x → x.blocks = true → p ≤ x.position) : t.blocked p r = s.blocked p r := by
  rw [Bool.eq_iff_iff, blocked_iff, blocked_iff]
  refine exists_congr fun v => exists_congr fun x => ?_
  by_cases hv : v = u
  · subst hv
    constructor
    · rintro ⟨hx, hb, hp, -⟩
      exact absurd (ht x hx hb) (Nat.not_le.2 hp)
    · rintro ⟨hx, hb, hp, -⟩
      exact absurd (hs x hx hb) (Nat.not_le.2 hp)
  · rw [slots v hv]

/-- With no more PARKED or HELD slots than before, nothing more is blocked. -/
theorem blocked_of_fewer {s t : State} {p : Nat} {r : Request}
    (fewer : ∀ v x, t.slot v = some x → x.blocks = true →
      ∃ y, s.slot v = some y ∧ y.blocks = true ∧ y.position = x.position ∧ y.request = x.request)
    (h : s.blocked p r = false) : t.blocked p r = false := by
  rw [← Bool.not_eq_true, blocked_iff] at h ⊢
  rintro ⟨v, x, hx, hb, hp, hc⟩
  obtain ⟨y, hy, yb, yp, yr⟩ := fewer v x hx hb
  exact h ⟨v, y, hy, yb, yp ▸ hp, yr ▸ hc⟩

/-- A request's write data does not matter for what blocks it. -/
theorem requestsConflict_data (q r : Request) (d : List Byte) :
    requestsConflict q { r with data := d } = requestsConflict q r ∧
      requestsConflict { q with data := d } r = requestsConflict q r := ⟨rfl, rfl⟩

theorem blocked_data (s : State) (p : Nat) (r : Request) (d : List Byte) :
    s.blocked p { r with data := d } = s.blocked p r := rfl

theorem blocks_iff (x : Transaction) : x.blocks = true ↔ x.stage = .parked ∨ x.stage = .held := by
  simp [Transaction.blocks]

/-! ### Moves that block nothing -/

/-- The order of arrival and the freedom of what goes to memory, while PARKED slots may still be looked at (R9, R11). -/
structure State.ParkingOpen (s : State) : Prop where
  order : ∀ t x, s.slot t = some x → x.position < s.nextPosition
  clear : ∀ t x, s.slot t = some x → x.stage = .waiting ∨ x.stage = .held → s.blocked x.position x.request = false

theorem State.ParkingSound.of_same {s t : State} (h : s.ParkingSound) (transit : t.transit = s.transit)
    (next : t.nextPosition = s.nextPosition) : t.ParkingSound := by
  obtain ⟨order, clear, parked⟩ := h
  constructor <;> simp only [State.slot, transit, next, blocked_congr transit] at * <;> assumption

/-- A slot that blocks nothing moves to a stage that blocks nothing and does not wait. -/
theorem State.ParkingSound.move {s t : State} {u : Tag} (h : s.ParkingSound) (slots : ∀ v, v ≠ u → t.slot v = s.slot v)
    (next : t.nextPosition = s.nextPosition) (old : ∀ x, s.slot u = some x → x.blocks = false)
    (new : ∀ y, t.slot u = some y → y.blocks = false ∧ y.stage ≠ .waiting ∧ ∃ x, s.slot u = some x ∧ y.position = x.position) :
    t.ParkingSound := by
  have same : ∀ p r, t.blocked p r = s.blocked p r := fun p r =>
    blocked_eq_of_off r slots (fun x hx hb => absurd hb (by simp [old x hx])) fun y hy hb => absurd hb (by simp [(new y hy).1])
  constructor
  case order =>
    intro v y hy
    rw [next]
    by_cases hv : v = u
    · subst hv
      obtain ⟨-, -, x, hx, hp⟩ := new y hy
      exact hp ▸ h.order v x hx
    · exact h.order v y ((slots v hv).symm.trans hy)
  case clear =>
    intro v y hy hw
    by_cases hv : v = u
    · subst hv
      obtain ⟨hb, hn, -⟩ := new y hy
      rcases hw with hw | hw
      · exact absurd hw hn
      · exact absurd ((blocks_iff y).2 (.inr hw)) (by simp [hb])
    · rw [same]
      exact h.clear v y ((slots v hv).symm.trans hy) hw
  case parked =>
    intro v y hy hp
    by_cases hv : v = u
    · subst hv
      exact absurd ((blocks_iff y).2 (.inl hp)) (by simp [(new y hy).1])
    · rw [same]
      exact h.parked v y ((slots v hv).symm.trans hy) hp

/-- A FREE slot takes a request at the next position: it blocks nothing that is there (R6, R9). -/
theorem State.ParkingSound.arrive {s t : State} {u : Tag} (h : s.ParkingSound) (free : s.slot u = none)
    (slots : ∀ v, v ≠ u → t.slot v = s.slot v) (next : t.nextPosition = s.nextPosition + 1)
    (new : ∀ y, t.slot u = some y → y.position = s.nextPosition ∧
      (y.stage = .waiting ∨ y.stage = .held → s.blocked y.position y.request = false) ∧
      (y.stage = .parked → s.blocked y.position y.request = true)) : t.ParkingSound := by
  have same : ∀ p r, p ≤ s.nextPosition → t.blocked p r = s.blocked p r := fun p r hp =>
    blocked_eq_of_off r slots (fun x hx => by rw [free] at hx; cases hx) fun y hy _ => (new y hy).1.symm ▸ hp
  constructor
  case order =>
    intro v y hy
    rw [next]
    by_cases hv : v = u
    · subst hv
      have := (new y hy).1
      omega
    · have := h.order v y ((slots v hv).symm.trans hy)
      omega
  case clear =>
    intro v y hy hw
    by_cases hv : v = u
    · subst hv
      rw [same _ _ (new y hy).1.le]
      exact (new y hy).2.1 hw
    · have hs := (slots v hv).symm.trans hy
      rw [same _ _ (h.order v y hs).le]
      exact h.clear v y hs hw
  case parked =>
    intro v y hy hp
    by_cases hv : v = u
    · subst hv
      rw [same _ _ (new y hy).1.le]
      exact (new y hy).2.2 hp
    · have hs := (slots v hv).symm.trans hy
      rw [same _ _ (h.order v y hs).le]
      exact h.parked v y hs hp

/-! ### The unparking pass -/

/-- A disposition carried out moves its own slot alone, to WAITING or HELD (R10, R12). -/
theorem carryOut_slot (mayHold : Bool) (x : Transaction) (s : State) :
    (∀ v, v ≠ x.request.tag → (s.carryOut mayHold x).slot v = s.slot v) ∧
      ∃ st, (st = .waiting ∨ st = .held) ∧ (s.carryOut mayHold x).slot x.request.tag = some { x with stage := st } := by
  unfold State.carryOut
  split
  · next e b p _ =>
    split
    · constructor
      · intro v hv
        exact (slot_putSlot_of_ne _ _ hv).trans (by simp [State.slot, askHold_transit])
      · refine ⟨s.holdAnswer.stage .held .waiting, ?_, slot_putSlot_self _ _ _⟩
        cases s.holdAnswer <;> simp [HoldAnswer.stage]
    · exact ⟨fun v hv => slot_putSlot_of_ne s _ hv, .waiting, .inl rfl, slot_putSlot_self _ _ _⟩
  · exact ⟨fun v hv => slot_putSlot_of_ne s _ hv, .waiting, .inl rfl, slot_putSlot_self _ _ _⟩

/-- What looking at a slot can do (R11): nothing, where it is not PARKED or is blocked; or it goes to WAITING or HELD. -/
inductive LookedAt (s : State) (t : Tag) (s' : State) : Prop
  | left (h : s' = s) (hp : ∀ x, s.slot t = some x → x.stage = .parked → s.blocked x.position x.request = true)
  | unparked {x : Transaction} {st : Stage} (hx : s.slot t = some x) (hp : x.stage = .parked)
    (hb : s.blocked x.position x.request = false) (slots : ∀ v, v ≠ t → s'.slot v = s.slot v)
    (hs : st = .waiting ∨ st = .held) (hy : s'.slot t = some { x with stage := st })

theorem lookedAt {s : State} (tags : ∀ t x, s.slot t = some x → x.request.tag = t) (mayHold : Bool) (t : Tag) :
    LookedAt s t (s.unparkOne mayHold t) := by
  unfold State.unparkOne
  split
  · next hx => exact .left rfl fun x hx' => by rw [hx] at hx'; cases hx'
  · next x hx =>
    have tag := tags t x hx
    subst tag
    split
    · next hp =>
      have logged : ∀ v ns u, (State.appendAll ns u).slot v = u.slot v := fun v ns u =>
        (appendAll_logFrame ns u).pathSame.slot v
      obtain ⟨rest, st, hs, own⟩ := carryOut_slot mayHold x s
      exact .unparked hx hp.1 hp.2 (fun v hv => (logged v _ _).trans (rest v hv)) hs ((logged _ _ _).trans own)
    · next hp =>
      refine .left rfl fun y hy hy' => ?_
      rw [hx, Option.some.injEq] at hy
      subst hy
      simpa [hy'] using hp

/-- Slots are as they were, but that some PARKED ones have gone to WAITING or HELD. -/
def Unparked (s t : State) : Prop :=
  ∀ v, t.slot v = s.slot v ∨
    ∃ x st, s.slot v = some x ∧ x.stage = .parked ∧ (st = .waiting ∨ st = .held) ∧ t.slot v = some { x with stage := st }

theorem Unparked.trans {s t u : State} (h : Unparked s t) (k : Unparked t u) : Unparked s u := by
  intro v
  rcases h v with h | ⟨x, st, hx, hp, hs, hy⟩
  · rw [← h]
    exact k v
  · rcases k v with k | ⟨y, st', hy', hp', -⟩
    · exact .inr ⟨x, st, hx, hp, hs, k.trans hy⟩
    · rw [hy, Option.some.injEq] at hy'
      subst hy'
      rcases hs with rfl | rfl <;> cases hp'

theorem unparked_of_lookedAt {s s' : State} {t : Tag} (h : LookedAt s t s') : Unparked s s' := by
  intro v
  cases h with
  | left h _ => exact .inl (h ▸ rfl)
  | unparked hx hp _ slots hs hy =>
    by_cases hv : v = t
    · subst hv
      exact .inr ⟨_, _, hx, hp, hs, hy⟩
    · exact .inl (slots v hv)

theorem Unparked.positionOf {s t : State} (h : Unparked s t) (v : Tag) : t.positionOf v = s.positionOf v := by
  unfold State.positionOf
  rcases h v with h | ⟨x, st, hx, -, -, hy⟩
  · rw [h]
  · rw [hx, hy]

theorem Unparked.fewer {s t : State} (h : Unparked s t) (v : Tag) (x : Transaction) (hx : t.slot v = some x)
    (hb : x.blocks = true) :
    ∃ y, s.slot v = some y ∧ y.blocks = true ∧ y.position = x.position ∧ y.request = x.request := by
  rcases h v with h | ⟨y, st, hy, hp, -, hz⟩
  · exact ⟨x, h ▸ hx, hb, rfl, rfl⟩
  · rw [hz, Option.some.injEq] at hx
    subst hx
    exact ⟨y, hy, (blocks_iff y).2 (.inl hp), rfl, rfl⟩

/-- Unparking a slot keeps the order and the freedom of what goes to memory. -/
theorem State.ParkingOpen.lookAt {s s' : State} {t : Tag} (h : s.ParkingOpen) (next : s'.nextPosition = s.nextPosition)
    (hl : LookedAt s t s') : s'.ParkingOpen := by
  have un := unparked_of_lookedAt hl
  cases hl with
  | left e _ => exact e ▸ h
  | @unparked x st hx hp hb slots hs hy =>
    constructor
    · intro v y hv
      rw [next]
      by_cases e : v = t
      · subst e
        rw [hy, Option.some.injEq] at hv
        exact hv ▸ h.order v x hx
      · exact h.order v y ((slots v e).symm.trans hv)
    · intro v y hv hw
      refine blocked_of_fewer un.fewer ?_
      by_cases e : v = t
      · subst e
        rw [hy, Option.some.injEq] at hv
        subst hv
        exact hb
      · exact h.clear v y ((slots v e).symm.trans hv) hw

theorem positionOf_of_slot {s : State} {v : Tag} {x : Transaction} (h : s.slot v = some x) : s.positionOf v = x.position := by
  simp [State.positionOf, h]

/-- Whatever it looks at, a pass does nothing but unpark (R11). -/
theorem unparked_fold {mayHold : Bool} (ts : List Tag) {s : State} (sound : s.PathSound) :
    Unparked s (ts.foldl (State.unparkOne mayHold) s) := by
  induction ts generalizing s with
  | nil => exact fun v => .inl rfl
  | cons t ts ih =>
    exact (unparked_of_lookedAt (lookedAt sound.tags mayHold t)).trans (ih (unparkOne_sound sound mayHold t))

/-- The pass leaves no PARKED slot that nothing blocks: a slot that it has looked at stays decided, as what it looks at later
has arrived no earlier (R11). -/
theorem unpark_fold {mayHold : Bool} (ts : List Tag) {s : State} (sound : s.PathSound) (h : s.ParkingOpen)
    (sorted : ts.Pairwise fun a b => s.positionOf a ≤ s.positionOf b)
    (behind : ∀ v x, s.slot v = some x → x.stage = .parked → v ∉ ts →
      s.blocked x.position x.request = true ∧ ∀ u ∈ ts, x.position ≤ s.positionOf u) :
    (ts.foldl (State.unparkOne mayHold) s).ParkingSound := by
  induction ts generalizing s with
  | nil =>
    exact ⟨h.order, h.clear, fun v x hx hp => (behind v x hx hp List.not_mem_nil).1⟩
  | cons t ts ih =>
    rw [List.pairwise_cons] at sorted
    have hl := lookedAt sound.tags mayHold t
    have un := unparked_of_lookedAt hl
    have next := (unparkOne_holdFrame mayHold s t).nextPosition
    rw [List.foldl_cons]
    refine ih (unparkOne_sound sound mayHold t) (h.lookAt next hl) (by simpa only [un.positionOf] using sorted.2) ?_
    intro v y hv hp hm
    simp only [un.positionOf]
    cases hl with
    | left e hb =>
      rw [e] at hv ⊢
      by_cases ht : v = t
      · subst ht
        exact ⟨hb y hv hp, fun u hu => positionOf_of_slot hv ▸ sorted.1 u hu⟩
      · obtain ⟨hby, hpy⟩ := behind v y hv hp (by simp [ht, hm])
        exact ⟨hby, fun u hu => hpy u (List.mem_cons_of_mem _ hu)⟩
    | @unparked x st hx hxp hxb slots hs hy =>
      have ht : v ≠ t := by
        rintro rfl
        rw [hy, Option.some.injEq] at hv
        subst hv
        rcases hs with rfl | rfl <;> cases hp
      have hv' := (slots v ht).symm.trans hv
      obtain ⟨hby, hpy⟩ := behind v y hv' hp (by simp [ht, hm])
      refine ⟨?_, fun u hu => hpy u (List.mem_cons_of_mem _ hu)⟩
      have late : y.position ≤ x.position := positionOf_of_slot hx ▸ hpy t (List.mem_cons_self ..)
      rw [blocked_eq_of_off y.request slots (fun z hz _ => ?_) (fun z hz _ => ?_)]
      · exact hby
      · rw [hx, Option.some.injEq] at hz
        exact hz ▸ late
      · rw [hy, Option.some.injEq] at hz
        exact hz ▸ late

theorem insertByPosition_eq (s : State) (t : Tag) (us : List Tag) :
    s.insertByPosition t us = us.orderedInsert (fun a b => s.positionOf a ≤ s.positionOf b) t := by
  induction us with
  | nil => rfl
  | cons u us ih => rw [State.insertByPosition, List.orderedInsert_cons, ih]

/-- The pass's list is the PARKED slots sorted by position. -/
theorem parkedTags_eq (s : State) :
    s.parkedTags = (allTags.filter s.isParked).insertionSort fun a b => s.positionOf a ≤ s.positionOf b := by
  unfold State.parkedTags List.insertionSort
  congr 1
  funext t us
  exact insertByPosition_eq s t us

theorem parkedTags_sorted (s : State) : s.parkedTags.Pairwise fun a b => s.positionOf a ≤ s.positionOf b := by
  have total : Std.Total fun a b : Tag => s.positionOf a ≤ s.positionOf b := ⟨fun a b => Nat.le_total _ _⟩
  have trans : IsTrans Tag fun a b => s.positionOf a ≤ s.positionOf b := ⟨fun a b c => Nat.le_trans⟩
  rw [parkedTags_eq]
  exact List.pairwise_insertionSort _ _

theorem mem_parkedTags (s : State) (t : Tag) : t ∈ s.parkedTags ↔ ∃ x, s.slot t = some x ∧ x.stage = .parked := by
  rw [parkedTags_eq, List.mem_insertionSort, List.mem_filter]
  unfold State.isParked
  cases s.slot t <;> simp [mem_allTags]

/-- After the pass the parking order holds, whatever was PARKED before it. -/
theorem unparkPass_parking {s : State} (sound : s.PathSound) (h : s.ParkingOpen) (mayHold : Bool) :
    (s.unparkPass mayHold).ParkingSound :=
  unpark_fold s.parkedTags sound h (parkedTags_sorted s) fun v x hx hp hn => absurd ((mem_parkedTags s v).2 ⟨x, hx, hp⟩) hn

theorem unparkPass_unparked {s : State} (sound : s.PathSound) (mayHold : Bool) : Unparked s (s.unparkPass mayHold) :=
  unparked_fold s.parkedTags sound

end Sys2Proof.Machine
end

-- ==== The parking order is kept ====
section
/-! O13: every row keeps the parking order (R9, R11). -/

namespace Sys2Proof.Machine

/-! ### Holds that end -/

theorem State.ParkingOpen.of_same {s t : State} (h : s.ParkingOpen) (transit : t.transit = s.transit)
    (next : t.nextPosition = s.nextPosition) : t.ParkingOpen := by
  obtain ⟨order, clear⟩ := h
  constructor <;> simp only [State.slot, transit, next, blocked_congr transit] at * <;> assumption

/-- A slot stops blocking: what goes to memory stays free, but a PARKED slot may have nothing left that it waits for. -/
theorem State.ParkingSound.unblock {s t : State} {u : Tag} {x y : Transaction} (h : s.ParkingSound)
    (slots : ∀ v, v ≠ u → t.slot v = s.slot v) (next : t.nextPosition = s.nextPosition) (hx : s.slot u = some x)
    (hy : t.slot u = some y) (position : y.position = x.position) (quiet : y.blocks = false)
    (clear : y.stage = .waiting → s.blocked y.position y.request = false) : t.ParkingOpen := by
  have fewer : ∀ v z, t.slot v = some z → z.blocks = true →
      ∃ w, s.slot v = some w ∧ w.blocks = true ∧ w.position = z.position ∧ w.request = z.request := by
    intro v z hz hb
    by_cases hv : v = u
    · subst hv
      rw [hy, Option.some.injEq] at hz
      subst hz
      rw [quiet] at hb
      cases hb
    · exact ⟨z, (slots v hv).symm.trans hz, hb, rfl, rfl⟩
  constructor
  case order =>
    intro v z hz
    rw [next]
    by_cases hv : v = u
    · subst hv
      rw [hy, Option.some.injEq] at hz
      exact hz ▸ position.symm ▸ h.order v x hx
    · exact h.order v z ((slots v hv).symm.trans hz)
  case clear =>
    intro v z hz hw
    refine blocked_of_fewer fewer ?_
    by_cases hv : v = u
    · subst hv
      rw [hy, Option.some.injEq] at hz
      subst hz
      rcases hw with hw | hw
      · exact clear hw
      · rw [(blocks_iff y).2 (.inr hw)] at quiet
        cases quiet
    · exact h.clear v z ((slots v hv).symm.trans hz) hw

/-- Where the slot of an ending hold goes (R57): to ANSWERING, or from a BEFORE hold to WAITING; it keeps its position, and its
request but for the write data. -/
theorem slot_deliver {s : State} {g : Hold} {x : Transaction} (hx : s.slot g.tag = some x) (proceeds : Bool) :
    (∀ v, v ≠ g.tag → (s.deliver proceeds g).slot v = s.slot v) ∧
      ∃ y, (s.deliver proceeds g).slot g.tag = some y ∧ y.position = x.position ∧
        ((∃ r, y.stage = .answering r) ∨
          g.point = .before ∧ y.stage = .waiting ∧ ∃ d, y.request = { x.request with data := d }) := by
  unfold State.deliver
  simp only [hx]
  split
  · split
    · next hp =>
      exact ⟨fun v hv => slot_putSlot_of_ne s _ hv, _, slot_putSlot_self _ _ _, rfl, .inr ⟨hp, rfl, _, rfl⟩⟩
    · exact ⟨fun v hv => slot_answerSlot_of_ne s x _ hv, _, slot_answerSlot_self _ _ _ _, rfl, .inl ⟨_, rfl⟩⟩
  · exact ⟨fun v hv => slot_answerSlot_of_ne s x _ hv, _, slot_answerSlot_self _ _ _ _, rfl, .inl ⟨_, rfl⟩⟩

theorem endHold_parking {s : State} (sound : s.PathSound) (h : s.ParkingSound) {g : Hold} (hg : g ∈ s.holds)
    (mayHold proceeds expiry : Bool) (o : TraceOutcome) : (s.endHold mayHold proceeds expiry o g).ParkingSound := by
  have next := (deliver_holdFrame proceeds g (s.removeHold g.id)).nextPosition
  have logged := (append_logFrame ((s.removeHold g.id).deliver proceeds g) (g.endNote (some g.id) o)).trans
    (postIf_logFrame expiry .expiry g.id _)
  have delivered := (deliver_sound sound hg proceeds).of_same logged.pathSame
  unfold State.endHold
  rcases sound.held_of_mem hg with ⟨hp, x, hx, hs⟩ | ⟨hp, x, hx, hs⟩
  · obtain ⟨slots, y, hy, position, hy'⟩ := slot_deliver (s := s.removeHold g.id) hx proceeds
    have opened : ((s.removeHold g.id).deliver proceeds g).ParkingOpen := by
      refine h.unblock slots next hx hy position ?_ fun hw => ?_
      · rcases hy' with ⟨r, hr⟩ | ⟨-, hw, -⟩ <;> simp [Transaction.blocks, *]
      · rcases hy' with ⟨r, hr⟩ | ⟨-, -, d, hd⟩
        · rw [hr] at hw; cases hw
        · rw [hd, blocked_data, position]
          exact h.clear g.tag x hx (.inr hs)
    simp only [hp]
    exact unparkPass_parking delivered (opened.of_same logged.transit logged.nextPosition) mayHold
  · obtain ⟨slots, y, hy, position, hy'⟩ := slot_deliver (s := s.removeHold g.id) hx proceeds
    have answered : ∃ r, y.stage = .answering r := hy'.resolve_right fun k => by simp [hp] at k
    obtain ⟨r, hr⟩ := answered
    have moved : ((s.removeHold g.id).deliver proceeds g).ParkingSound := by
      refine h.move slots next (fun z hz => ?_) fun z hz => ?_
      · obtain ⟨r', hr'⟩ := hs
        rw [hx, Option.some.injEq] at hz
        simp [← hz, Transaction.blocks, hr']
      · rw [hy, Option.some.injEq] at hz
        subst hz
        exact ⟨by simp [Transaction.blocks, hr], by simp [hr], x, hx, position⟩
    simp only [hp]
    exact moved.of_same logged.transit logged.nextPosition

theorem expireNext_parking {s : State} (sound : s.PathSound) (h : s.ParkingSound) : s.expireNext.ParkingSound := by
  unfold State.expireNext State.expire
  split
  · exact h
  · next g hg => split <;> exact endHold_parking sound h (mem_of_dueHold hg) _ _ _ _

theorem clearHolds_parking {s : State} (sound : s.PathSound) (h : s.ParkingSound) : s.clearHolds.ParkingSound := by
  have ended := (endHolds_keeps (fun _ _ hs hg hp => endHold_parking hs hp hg _ _ _ _) sound h).2
  unfold State.clearHolds
  generalize s.holds.foldl (State.endHold false true false .cleared) s = u at ended ⊢
  exact ended.of_same rfl rfl

/-! ### Arrivals, grants, answers and returns -/

/-- An arrival is an acceptance with its early evaluation, perhaps a write into the store, and what creating a hold and
answering may change (R6, R8 to R10). -/
theorem arrived_holdFrame {s t : State} {r : Request} (ha : Arrived s r t) :
    HoldFrame s.accepted t ∨ ∃ m, HoldFrame ((s.judged r).putStore m) t := by
  have logged : ∀ ns u, HoldFrame u (State.appendAll ns u) := fun ns u => (appendAll_logFrame ns u).toHoldFrame
  cases ha with
  | wrong _ => exact .inl ((answerSlot_holdFrame _ _ _ _).trans (logged _ _))
  | answered ns _ => exact .inr ⟨_, (answerSlot_holdFrame _ _ _ _).trans (logged _ _)⟩
  | entered ns =>
    have entered : HoldFrame ((s.judged r).putStore s.store) ((s.judged r).enter (s.entrant r)) := enter_holdFrame _ _
    exact .inr ⟨_, entered.trans (logged _ _)⟩

theorem arrived_nextPosition {s t : State} {r : Request} (ha : Arrived s r t) : t.nextPosition = s.nextPosition + 1 := by
  rcases arrived_holdFrame ha with h | ⟨m, h⟩ <;> exact h.nextPosition

/-- What an arrival leaves in the slots: its transaction in its tag's slot, PARKED exactly where it is blocked if it goes
toward memory (R6, R7, R9), and every other slot as it was. -/
theorem arrived_slot {s t : State} {r : Request} (ha : Arrived s r t) :
    (∀ v, v ≠ r.tag → t.slot v = s.slot v) ∧ ∃ d st, t.slot r.tag = some (s.newTransaction r d st) ∧
      (d = if protocolError r = none then some (s.early r) else none) ∧
      (st = .waiting ∨ st = .held → s.blocked s.nextPosition r = false) ∧
      (st = .parked → s.blocked s.nextPosition r = true) := by
  have logged : ∀ ns u v, (State.appendAll ns u).slot v = u.slot v := fun ns u v =>
    (appendAll_logFrame ns u).pathSame.slot v
  cases ha with
  | wrong ho =>
    exact ⟨fun v hv => (logged _ _ v).trans (slot_answerSlot_of_ne s.accepted _ _ hv), none, .answering faultResponse,
      (logged _ _ _).trans (slot_answerSlot_self _ _ _ _), by simp [ho], by simp, by simp⟩
  | answered ns _ ok =>
    exact ⟨fun v hv => (logged _ _ v).trans (slot_answerSlot_of_ne _ (s.entrant r) _ hv), some (s.early r), .answering _,
      (logged _ _ _).trans (slot_answerSlot_self _ _ _ _), by simp [ok], by simp, by simp⟩
  | entered ns ok =>
    simp only [logged, State.enter]
    have blocked : (s.judged r).blocked (s.entrant r).position (s.entrant r).request = s.blocked s.nextPosition r :=
      blocked_congr rfl _ _
    rw [blocked]
    split
    · next hb =>
      exact ⟨fun v hv => slot_putSlot_of_ne (s.judged r) _ hv, some (s.early r), .parked, slot_putSlot_self _ _ _, by simp,
        by simp, fun _ => hb⟩
    · next hb =>
      obtain ⟨rest, st, hst, own⟩ := carryOut_slot true (s.entrant r) (s.judged r)
      refine ⟨rest, some (s.early r), st, own, by simp, fun _ => by simpa using hb, fun hp => ?_⟩
      rcases hst with rfl | rfl <;> cases hp

/-- An arrival has the last position: it blocks nothing that is there, and parks where it is blocked (R6, R9). -/
theorem arrived_parking {s t : State} {r : Request} (h : s.ParkingSound) (free : s.slot r.tag = none)
    (ha : Arrived s r t) : t.ParkingSound := by
  obtain ⟨rest, d, st, own, -, clear, parked⟩ := arrived_slot ha
  refine h.arrive free rest (arrived_nextPosition ha) fun y hy => ?_
  obtain rfl := Option.some.inj (own.symm.trans hy)
  exact ⟨rfl, clear, parked⟩

theorem takeResponse_parking {s : State} (sound : s.PathSound) (h : s.ParkingSound) : s.takeResponse.ParkingSound := by
  unfold State.takeResponse
  split
  · exact h
  · next u q hq =>
    obtain ⟨x, hx, r, hr⟩ := (sound.answering u).1 (hq ▸ List.mem_cons_self ..)
    refine h.move (fun v hv => slot_set_of_ne rfl hv) rfl (fun y hy => ?_) fun y hy => ?_
    · rw [hx, Option.some.injEq] at hy
      simp [← hy, Transaction.blocks, hr]
    · rw [slot_set_self (s := s) rfl] at hy
      cases hy

theorem granted_parking {s t : State} (h : s.ParkingSound) (hg : Granted s t) : t.ParkingSound := by
  cases hg with
  | none _ => exact h
  | @path u x _ hu hx _ =>
    obtain ⟨y, hy, waiting⟩ := (isWaiting_iff s u).1 (pathCandidate_least hu).1
    refine h.move (fun v hv => slot_set_of_ne rfl hv) rfl (fun z hz => ?_) fun z hz => ?_
    · rw [hy, Option.some.injEq] at hz
      simp [← hz, Transaction.blocks, waiting]
    · have own : (s.grantPath u x).slot u = some { x with stage := .issued } := slot_set_self rfl
      obtain rfl := Option.some.inj (own.symm.trans hz)
      exact ⟨rfl, by simp, x, hx, rfl⟩
  | injected _ _ _ => exact h.of_same rfl rfl

/-- What a return to a slot leaves in it: its transaction, answering or held with the response (R18). -/
theorem slotReturned_slot {s t : State} {u : Tag} {x : Transaction} {ret : MemReturn} (hr : SlotReturned s u x ret t) :
    (∀ v, v ≠ u → t.slot v = s.slot v) ∧
      ∃ st, (isAnswering st ∨ isHeldResponse st) ∧ t.slot u = some { x with stage := st } := by
  have logged : ∀ ns w v, (State.appendAll ns w).slot v = w.slot v := fun ns w v =>
    (appendAll_logFrame ns w).pathSame.slot v
  have late : ∀ v, (s.lateState x ret).slot v = s.slot v := (lateState_pathSame x ret s).slot
  cases hr with
  | answered resp ns =>
    exact ⟨fun v hv => (logged _ _ v).trans ((slot_answerSlot_of_ne _ _ _ hv).trans (late v)), .answering resp, .inl ⟨_, rfl⟩,
      (logged _ _ u).trans (slot_answerSlot_self _ _ _ _)⟩
  | asked e b p ns =>
    have asked : ∀ g v, ((s.lateState x ret).askHold g).slot v = s.slot v := fun g v =>
      (by simp [State.slot, askHold_transit] : _ = (s.lateState x ret).slot v).trans (late v)
    unfold State.holdResponse
    split
    · exact ⟨fun v hv => (logged _ _ v).trans ((slot_putSlot_of_ne _ _ hv).trans (asked _ v)), .heldResponse _,
        .inr ⟨_, rfl⟩, (logged _ _ u).trans (slot_putSlot_self _ _ _)⟩
    all_goals
      exact ⟨fun v hv => (logged _ _ v).trans ((slot_answerSlot_of_ne _ _ _ hv).trans (asked _ v)), .answering _,
        .inl ⟨_, rfl⟩, (logged _ _ u).trans (slot_answerSlot_self _ _ _ _)⟩

/-- What a return to a slot keeps: what the match unit, the path's slots and the hold controller do not own. -/
theorem slotReturned_holdFrame {s t : State} {u : Tag} {x : Transaction} {r : MemReturn} (h : SlotReturned s u x r t) :
    HoldFrame (s.lateState x r) t := by
  have logged : ∀ ns v, HoldFrame v (State.appendAll ns v) := fun ns v => (appendAll_logFrame ns v).toHoldFrame
  cases h with
  | answered _ ns => exact (answerSlot_holdFrame _ _ _ _).trans (logged _ _)
  | asked _ _ _ ns => exact (holdResponse_holdFrame _ _ _ _ _).trans (logged _ _)

theorem slotReturned_keeps_next {s t : State} {u : Tag} {x : Transaction} {ret : MemReturn} (hr : SlotReturned s u x ret t) :
    t.nextPosition = s.nextPosition := by
  refine (slotReturned_holdFrame hr).nextPosition.trans ?_
  unfold State.lateState
  split <;> rfl

theorem returned_parking {s t : State} {ret : MemReturn} (h : s.ParkingSound)
    (hr : Returned s ret t) : t.ParkingSound := by
  cases hr with
  | none _ => exact h
  | injected _ => exact h.of_same rfl rfl
  | @orphan u m rest x _ hx ho =>
    refine h.move (fun v hv => slot_freeSlot_of_ne (s.putIssue rest) hv) rfl (fun y hy => ?_) fun y hy => ?_
    · rw [hx, Option.some.injEq] at hy
      simp [← hy, Transaction.blocks, ho]
    · rw [slot_freeSlot_self] at hy
      cases hy
  | @slot u m rest x _ _ hx hi hu =>
    obtain ⟨slots, st, hst, own⟩ := slotReturned_slot hu
    have next : t.nextPosition = (s.putIssue rest).nextPosition := slotReturned_keeps_next hu
    refine h.move slots next (fun y hy => ?_) fun y hy => ?_
    · rw [hx, Option.some.injEq] at hy
      simp [← hy, Transaction.blocks, hi]
    · obtain rfl := Option.some.inj (own.symm.trans hy)
      refine ⟨?_, ?_, x, hx, rfl⟩ <;> rcases hst with ⟨r, rfl⟩ | ⟨r, rfl⟩ <;> simp [Transaction.blocks]
  | stray _ _ => exact h.of_same rfl rfl

/-! ### Amended data and resets -/

/-- Amended write data matters for no conflict (R9, R64). -/
theorem blocked_amendSlot (s : State) (u : Tag) (d : List Byte) (p : Nat) (r : Request) :
    (s.amendSlot u d).blocked p r = s.blocked p r := by
  rw [Bool.eq_iff_iff, blocked_iff, blocked_iff]
  constructor
  · rintro ⟨v, y, hy, hb, hp, hc⟩
    obtain ⟨x, hx, stage, position, -, request⟩ := slot_amendSlot hy
    rw [request, (requestsConflict_data x.request r _).2] at hc
    exact ⟨v, x, hx, by simpa [Transaction.blocks, stage] using hb, position ▸ hp, hc⟩
  · rintro ⟨v, x, hx, hb, hp, hc⟩
    obtain ⟨y, hy, -⟩ := (slotIn_amendSlot s u d v fun _ => True).2 ⟨x, hx, trivial⟩
    obtain ⟨z, hz, stage, position, -, request⟩ := slot_amendSlot hy
    obtain rfl := Option.some.inj (hx.symm.trans hz)
    refine ⟨v, y, hy, by simpa [Transaction.blocks, stage] using hb, position.symm ▸ hp, ?_⟩
    rw [request, (requestsConflict_data x.request r _).2]
    exact hc

theorem amendSlot_parking {s : State} (h : s.ParkingSound) (u : Tag) (d : List Byte) : (s.amendSlot u d).ParkingSound := by
  have next : (s.amendSlot u d).nextPosition = s.nextPosition := by
    unfold State.amendSlot
    split <;> rfl
  constructor
  case order =>
    intro v y hy
    obtain ⟨x, hx, -, position, -, -⟩ := slot_amendSlot hy
    rw [next, position]
    exact h.order v x hx
  case clear =>
    intro v y hy hw
    obtain ⟨x, hx, stage, position, -, request⟩ := slot_amendSlot hy
    rw [blocked_amendSlot, request, blocked_data, position]
    exact h.clear v x hx (stage ▸ hw)
  case parked =>
    intro v y hy hp
    obtain ⟨x, hx, stage, position, -, request⟩ := slot_amendSlot hy
    rw [blocked_amendSlot, request, blocked_data, position]
    exact h.parked v x hx (stage ▸ hp)

theorem amendBody_parking {s : State} (h : s.ParkingSound) (id n : Byte) (d : List Byte) :
    (amendBody id n d s).state.ParkingSound := by
  unfold amendBody withHold
  split
  · split
    · exact h
    · next g _ =>
      have updated : (s.updateHold (g.amendWith d)).ParkingSound := h.of_same rfl rfl
      unfold amendRecord State.amendHold
      split
      · exact h
      · split
        · exact h
        · unfold done
          split
          · exact amendSlot_parking updated g.tag d
          · exact updated
  · exact h

theorem withHold_parking {s : State} {f : Hold → State → Reply} (h : s.ParkingSound) (id : Byte)
    (hf : ∀ g ∈ s.holds, (f g s).state.ParkingSound) : (withHold id f s).state.ParkingSound := by
  unfold withHold
  split
  · exact h
  · next g hg => exact hf g (mem_of_findHold hg)

theorem requesterReset_parking {s : State} (h : s.ParkingSound) : s.requesterReset.ParkingSound := by
  have next : s.requesterReset.nextPosition = s.nextPosition := (appendAll_logFrame _ s).nextPosition
  have orphan : ∀ v y, s.requesterReset.slot v = some y →
      y.stage = .orphan ∧ ∃ x, s.slot v = some x ∧ y.position = x.position := by
    intro v y hy
    rw [requesterReset_slot, resetSlot_eq_some_iff] at hy
    obtain ⟨x, hx, -, rfl⟩ := hy
    exact ⟨rfl, x, hx, rfl⟩
  constructor
  case order =>
    intro v y hy
    obtain ⟨-, x, hx, hp⟩ := orphan v y hy
    rw [next, hp]
    exact h.order v x hx
  case clear =>
    intro v y hy hw
    rw [(orphan v y hy).1] at hw
    rcases hw with hw | hw <;> cases hw
  case parked =>
    intro v y hy hp
    rw [(orphan v y hy).1] at hp
    cases hp

theorem inReset_parking (por l : Bool) (s : State) : (s.inReset por l).ParkingSound := by
  constructor <;> · intro v x hx; rw [inReset_slot] at hx; cases hx

/-! ### Every step -/

/-- The pieces that the parking order depends on. -/
def parkingPieces : List Piece := .port :: pathPieces

theorem parkingSound_dependsOn : DependsOn [.port, .slots] State.ParkingSound := by
  intro s t same h
  have slots := same .slots (by decide)
  have port := same .port (by decide)
  simp only [Piece.Same, Prod.mk.injEq] at slots port
  exact h.of_same slots.1 port.1

theorem parkingSound_kept : Kept parkingPieces fun s => s.PathSound ∧ s.ParkingSound where
  depends s t same h :=
    ⟨pathSound_dependsOn s t (fun p hp => same p (List.mem_cons_of_mem _ hp)) h.1,
      parkingSound_dependsOn s t (fun p hp => same p (by revert p; decide)) h.2⟩
  queue := by decide
  inReset por l s := ⟨inReset_sound por l s, inReset_parking por l s⟩
  present r s h := ⟨pathSound_kept.present r s h.1, h.2.of_same rfl rfl⟩
  arrive r s t h free ha := ⟨arrived_sound h.1 free ha, arrived_parking h.2 free ha⟩
  due c f hf hm s h := by
    refine ⟨pathSound_kept.dueEffect hf h.1, ?_⟩
    cases c <;> cases hf
    case budgetStep => exact h.2.of_same rfl rfl
    case holdExpiry => exact expireNext_parking h.1 h.2
    all_goals exact absurd hm (by decide)
  event c f hf hm s h := by
    refine ⟨pathSound_kept.eventEffect hf h.1, ?_⟩
    cases c <;> cases hf
    case responseTaken => exact takeResponse_parking h.1 h.2
    case memoryPortGrant => exact granted_parking h.2 (granted s)
    case memoryReturn r => exact returned_parking h.2 (returned s r)
    case rqrstInAsserted =>
      unfold State.assertRqrstIn
      split
      · exact h.2
      · exact (requesterReset_parking h.2).of_same rfl rfl
    case clearUnitHolds =>
      unfold clearingEffect
      split
      · exact (clearHolds_parking h.1 h.2).of_same rfl rfl
      · exact h.2
    all_goals exact absurd hm Bool.false_ne_true
  command c k body hk hm s h := by
    refine ⟨pathSound_kept.commandBody hk h.1, ?_⟩
    cases c <;> cases hk
    case release id => exact withHold_parking h.2 id fun g hg => endHold_parking h.1 h.2 hg _ _ _ _
    case fail id => exact withHold_parking h.2 id fun g hg => endHold_parking h.1 h.2 hg _ _ _ _
    case amend id n d => exact amendBody_parking h.2 id n d
    case resetRequester =>
      unfold resetRequesterBody State.startPulse done
      split
      · exact h.2.of_same rfl rfl
      · exact (requesterReset_parking h.2).of_same rfl rfl
    case extend id u =>
      exact parkingSound_dependsOn.of_keeps (extendBody_keeps id u s) (by decide) h.2
    case peek a z => exact parkingSound_dependsOn.of_keeps (injectBody_keeps .peek a z [] s) (by decide) h.2
    case poke a z d => exact parkingSound_dependsOn.of_keeps (injectBody_keeps .poke a z d s) (by decide) h.2
    case accessResult id => exact parkingSound_dependsOn.of_keeps (accessResultBody_keeps id s) (by decide) h.2
    all_goals exact absurd hm Bool.false_ne_true

/-- Two requests conflict: the same granule, and one of them a WRITE (R9). -/
theorem requestsConflict_iff (q r : Request) : requestsConflict q r = true ↔
    q.addr.toNat / 64 = r.addr.toNat / 64 ∧ (q.kind = .write ∨ r.kind = .write) := by
  simp only [requestsConflict, conflicts, Bool.and_eq_true, Bool.or_eq_true, decide_eq_true_eq]
  rfl

/-- A request is blocked by an earlier PARKED or HELD transaction that it conflicts with (R9). -/
theorem blocked_iff_conflicting (s : State) (p : Nat) (r : Request) : s.blocked p r = true ↔
    ∃ u y, s.slot u = some y ∧ (y.stage = .parked ∨ y.stage = .held) ∧ y.position < p ∧
      y.request.addr.toNat / 64 = r.addr.toNat / 64 ∧ (y.request.kind = .write ∨ r.kind = .write) := by
  simp only [blocked_iff, blocks_iff, requestsConflict_iff]

/-- Settles O13: each row leaves every waiting or held slot unblocked and every parked one blocked, and the path candidate is a
waiting slot. -/
theorem everyStepKeepsTheParkingOrder : Obligations.EveryStepKeepsTheParkingOrder := by
  unfold Obligations.EveryStepKeepsTheParkingOrder
  refine ⟨fun s t sound h ht => (parkingSound_kept.step ⟨sound, h⟩ ht).2, fun s u x h hu hx => ?_⟩
  obtain ⟨y, hy, waiting⟩ := (isWaiting_iff s u).1 (pathCandidate_least hu).1
  obtain rfl := Option.some.inj (hx.symm.trans hy)
  rw [← blocked_iff_conflicting, Bool.not_eq_true]
  exact h.clear u x hx (.inl waiting)

end Sys2Proof.Machine
end

-- ==== Arrivals ====
section
/-! O17 to O21: what an accepted request does, by its early disposition (R4, R6 to R10, R75 to R78). -/

namespace Sys2Proof.Machine

/-- The row of an admitted request is the arrival at the state as it stands. -/
theorem exec_requestArrival_of_admits {s : State} {r : Request} (h : s.admits r) :
    exec (.requestArrival r) s = s.arrive r := execRequestArrival_of_admits h

theorem arrive_of_right {s : State} {r : Request} (h : protocolError r = none) : s.arrive r = s.arriveRight r := by
  simp [State.arrive, h]

/-! ### The protocol check -/

theorem protocolError_malformed_iff (r : Request) :
    protocolError r = some .malformed ↔ r.kind = .write ∧ r.size = .line := by
  unfold protocolError
  split
  · next h => simpa using h
  · next h => split <;> simpa using h

theorem protocolError_misaligned_iff (r : Request) :
    protocolError r = some .misaligned ↔
      ¬ (r.kind = .write ∧ r.size = .line) ∧ r.addr.toNat % r.size.bytes ≠ 0 := by
  unfold protocolError
  split
  · next h => simp [h]
  · next h => split <;> simp_all

/-- Settles O17: an arrival that fails the check is the model's `arriveWrong`, which is what the statement writes out. -/
theorem protocolErrorFaultsAtOnce : Obligations.ProtocolErrorFaultsAtOnce := by
  refine ⟨fun r => ⟨protocolError_malformed_iff r, protocolError_misaligned_iff r⟩, fun s r o hs ho => ?_⟩
  rw [exec_requestArrival_of_admits hs, State.arrive, ho]
  rfl

/-! ### Overlay windows inside the store -/

/-- The deciding entry of an OVERLAY disposition has the window and offset that the disposition carries (R33). -/
theorem disposition_eq_overlay {c : EntryConfig} {i e : EntryIndex} {base limit : Word} {offset : Nat}
    (h : c.disposition i = .overlay e base limit offset) :
    c.action = .overlay ∧ c.base = base ∧ c.limit = limit ∧ c.offset = offset := by
  unfold EntryConfig.disposition at h
  split at h <;> cases h
  exact ⟨by assumption, rfl, rfl, rfl⟩

theorem enabled_of_hitsOn {e : MatchEntry} {late : Bool} {r : Request} {d : List Byte} (h : e.hitsOn late r d = true) :
    e.enabled = true := by
  simp only [MatchEntry.hitsOn, Bool.and_eq_true] at h
  obtain ⟨⟨⟨⟨⟨enabled, -⟩, -⟩, -⟩, -⟩, -⟩ := h
  exact enabled

/-- With every enabled entry legal, the window of an OVERLAY disposition lies inside the store (R43, R75). -/
theorem overlay_fits {s : State} {r : Request} {e : EntryIndex} {base limit : Word} {offset : Nat} (sound : s.TableSound)
    (h : s.early r = .overlay e base limit offset) : 4 * offset + (limit.toNat + 1 - base.toNat) ≤ 1024 := by
  unfold State.early earlyDisposition at h
  split at h
  · cases h
  · next i hi =>
    obtain ⟨action, rfl, rfl, rfl⟩ := disposition_eq_overlay h
    have hit := ((mem_firedEntries _ _ _ _ i).1 (List.mem_of_find?_eq_some hi)).1
    have legal := sound.legal i (enabled_of_hitsOn hit)
    simp only [EntryConfig.legal, EntryConfig.windowLength, action, Bool.and_eq_true] at legal
    obtain ⟨⟨-, legal⟩, -⟩ := legal
    simp only [ne_eq, not_true_eq_false, decide_false, Bool.false_or, Bool.and_eq_true, decide_eq_true_eq] at legal
    obtain ⟨⟨-, fits⟩, -⟩ := legal
    exact of_decide_eq_true fits

theorem whollyInside_iff (base limit : Word) (r : Request) : whollyInside base limit r = true ↔
    base.toNat ≤ r.addr.toNat ∧ r.addr.toNat + r.size.bytes - 1 ≤ limit.toNat := by
  simp [whollyInside]

theorem serveOverlay_of_straddle {base limit : Word} {offset : Nat} {r : Request} {m : List Host.Cell}
    (h : ¬ (base.toNat ≤ r.addr.toNat ∧ r.addr.toNat + r.size.bytes - 1 ≤ limit.toNat)) :
    serveOverlay base limit offset r m = .straddle := by
  rw [← whollyInside_iff] at h
  simp [serveOverlay, h]

theorem size_pos (z : Size) : 1 ≤ z.bytes := by cases z <;> decide

/-- An access wholly inside a window that the store holds is served (R76, R77). -/
theorem serveOverlay_of_inside {base limit : Word} {offset : Nat} {r : Request} {m : List Host.Cell}
    (fits : 4 * offset + (limit.toNat + 1 - base.toNat) ≤ 1024) (low : base.toNat ≤ r.addr.toNat)
    (high : r.addr.toNat + r.size.bytes - 1 ≤ limit.toNat) : serveOverlay base limit offset r m =
      if r.kind = .write then
        .served ⟨.done, []⟩ (Memory.writeRange m (overlayByte base offset r.addr) (r.data.take r.size.bytes))
      else .served ⟨.done, Memory.readRange m (overlayByte base offset r.addr) r.size.bytes⟩ m := by
  have inside := (whollyInside_iff base limit r).2 ⟨low, high⟩
  have room : overlayByte base offset r.addr + r.size.bytes ≤ 1024 := by
    have := size_pos r.size
    unfold overlayByte
    omega
  simp [serveOverlay, inside, room]

/-- While the match table is sound an arrival answers a next state (R43, R75). -/
theorem arrive_next {s : State} (sound : s.TableSound) (r : Request) : ∃ t, s.arrive r = .next t := by
  unfold State.arrive
  split
  · exact ⟨_, rfl⟩
  · cases hd : s.early r with
    | pass => exact ⟨_, arriveRight_of_entering (.inl hd)⟩
    | hold e p b q => exact ⟨_, arriveRight_of_entering (.inr ⟨e, p, b, q, hd⟩)⟩
    | fault e => exact ⟨_, arriveRight_of_fault hd⟩
    | overlay e base limit offset =>
      rw [arriveRight_of_overlay hd]
      by_cases inside : base.toNat ≤ r.addr.toNat ∧ r.addr.toNat + r.size.bytes - 1 ≤ limit.toNat
      · rw [serveOverlay_of_inside (overlay_fits sound hd) inside.1 inside.2]
        split_ifs <;> exact ⟨_, rfl⟩
      · rw [serveOverlay_of_straddle inside]
        exact ⟨_, rfl⟩

/-- An arrival has a disposition exactly where it passes the protocol check (R4, R8). -/
theorem disposition_of_arrive {s t : State} {r : Request} (h : s.arrive r = .next t) :
    ∃ x, t.slot r.tag = some x ∧ x.position = s.nextPosition ∧ x.request = r ∧
      x.disposition = if protocolError r = none then some (s.early r) else none := by
  obtain ⟨-, d, st, own, hd, -⟩ := arrived_slot (arrived_of_arrive h)
  exact ⟨_, own, rfl, rfl, hd⟩

/-- Settles O18: an arrival is an acceptance followed by what changes the slots, the hold queue, the store and the log alone. -/
theorem arrivalTakesItsSlotAndNoOther : Obligations.ArrivalTakesItsSlotAndNoOther := by
  intro s r sound hs
  obtain ⟨t, ht⟩ := arrive_next sound r
  obtain ⟨x, own, position, request, disposition⟩ := disposition_of_arrive ht
  have ha := arrived_of_arrive ht
  refine ⟨t, x, (exec_requestArrival_of_admits hs).trans ht, own, position, request, disposition, (arrived_slot ha).1,
    arrived_nextPosition ha, ?_⟩
  rcases arrived_holdFrame ha with h | ⟨m, h⟩ <;>
    exact ⟨h.presented, h.issueList, h.fairness, h.injected, h.nextAccessId, h.tickCount, h.pulse, h.divider, h.noHold,
      h.traceMode, h.threshold, h.linkAddress, h.groupAddress, h.kept, h.checkErrors, h.batch⟩

/-! ### Arrivals that go toward memory -/

theorem early_of_no_hit {s : State} {r : Request} (h : ∀ i : EntryIndex, s.table[i].hitsOn false r r.data = false) :
    s.early r = .pass := by
  simp [State.early, firedEntries_of_no_hit h, earlyDisposition, decidingEntry]

theorem judged_of_no_hit {s : State} {r : Request} (h : ∀ i : EntryIndex, s.table[i].hitsOn false r r.data = false) :
    s.judged r = s.accepted := evaluated_of_no_hit (s := s.accepted) h

theorem entrant_eq {s : State} {r : Request} {d : Disposition} (h : s.early r = d) :
    s.entrant r = ⟨s.nextPosition, r, some d, .waiting⟩ := h ▸ rfl

/-- Settles O19: no entry fires, so the disposition is PASS, nothing is recorded, and the slot parks or waits. -/
theorem unmatchedArrivalWaitsOrParks : Obligations.UnmatchedArrivalWaitsOrParks := by
  refine ⟨blocked_iff_conflicting, fun s r hs ok miss => ?_⟩
  have pass := early_of_no_hit miss
  have blocked : s.accepted.blocked s.nextPosition r = s.blocked s.nextPosition r := blocked_congr rfl _ _
  rw [exec_requestArrival_of_admits hs, arrive_of_right ok, arriveRight_of_entering (.inl pass), judged_of_no_hit miss,
    entrant_eq pass]
  simp only [State.arrivalNotes, firedEntries_of_no_hit miss, State.enter, State.enterVerdict, blocked]
  split <;> rfl

/-- What asking for a hold does (R51 to R54, R56, R70). -/
theorem askHold_of_room {s : State} (mode : s.noHold = false) (room : s.holds.length < 4) (g : Hold) :
    s.holdAnswer = .created s.newHoldId ∧ (s.askHold g).holds = s.holds ++ [{ g with id := s.newHoldId }] ∧
      (s.askHold g).nextHoldId = s.newHoldId + 1 ∧ (s.askHold g).attention.hold = some s.newHoldId ∧
      (s.askHold g).refusedHolds = s.refusedHolds := by
  have answer : s.holdAnswer = .created s.newHoldId := by simp [State.holdAnswer, mode, Nat.not_le.2 room]
  simp [State.askHold, answer, nextHold, State.post, State.postIf, Attention.set]

theorem askHold_of_noHold {s : State} (mode : s.noHold = true) (g : Hold) :
    s.holdAnswer = .suppressed ∧ s.askHold g = s := by
  have answer : s.holdAnswer = .suppressed := by simp [State.holdAnswer, mode]
  simp [State.askHold, answer]

theorem askHold_of_full {s : State} (mode : s.noHold = false) (full : 4 ≤ s.holds.length) (g : Hold) :
    s.holdAnswer = .refused ∧ s.askHold g = { s with refusedHolds := min (s.refusedHolds + 1) 65535 } := by
  have answer : s.holdAnswer = .refused := by simp [State.holdAnswer, mode, full]
  simp [State.askHold, answer]

/-- What the records of an event leave of the hold queue and its flag. -/
theorem appendAll_holds (ns : List TraceNote) (s : State) : (s.appendAll ns).holds = s.holds ∧
    (s.appendAll ns).nextHoldId = s.nextHoldId ∧ (s.appendAll ns).attention.hold = s.attention.hold ∧
    (s.appendAll ns).refusedHolds = s.refusedHolds :=
  ⟨(appendAll_logFrame ns s).holds, (appendAll_logFrame ns s).nextHoldId, (appendAll_attention ns s).2.1,
    (appendAll_logFrame ns s).refusedHolds⟩

/-- A request to be held at point BEFORE that does not park asks for its hold and goes to HELD or WAITING (R10). -/
theorem arrive_of_before {s : State} {r : Request} {e : EntryIndex} {b : Nat} {p : Policy} (ok : protocolError r = none)
    (h : s.early r = .hold e .before b p) (clear : s.blocked s.nextPosition r = false) : ∃ ns,
    s.arrive r = .next ((((s.judged r).askHold (beforeHold (s.entrant r) e b p)).putSlot r.tag
      { s.entrant r with stage := (s.judged r).holdAnswer.stage .held .waiting }).appendAll ns) := by
  have clear' : (s.judged r).blocked (s.entrant r).position (s.entrant r).request = false :=
    (blocked_congr rfl _ _).trans clear
  have kept : (s.entrant r).disposition = some (.hold e .before b p) := congrArg some h
  have entered : (s.judged r).enter (s.entrant r) = ((s.judged r).askHold (beforeHold (s.entrant r) e b p)).putSlot r.tag
      { s.entrant r with stage := (s.judged r).holdAnswer.stage .held .waiting } := by
    rw [State.enter, clear']
    simp only [Bool.false_eq_true, if_false, State.carryOut, kept, if_true]
    rfl
  exact ⟨_, (arrive_of_right ok).trans (entered ▸ arriveRight_of_entering (.inr ⟨e, _, b, p, h⟩))⟩

/-- Settles O20: the hold is asked for in the state that the acceptance and the evaluation leave, whose hold queue is as it
was. -/
theorem beforeHoldIsCreatedSuppressedOrRefused : Obligations.BeforeHoldIsCreatedSuppressedOrRefused := by
  intro s r e b p hs ok early clear
  obtain ⟨ns, ht⟩ := arrive_of_before ok early clear
  refine ⟨_, { s.entrant r with stage := (s.judged r).holdAnswer.stage .held .waiting },
    (exec_requestArrival_of_admits hs).trans ht, ?_, fun mode room => ?_, fun mode => ?_, fun mode full => ?_⟩
  · exact ((appendAll_logFrame ns _).pathSame.slot _).trans (slot_putSlot_self _ _ _)
  · obtain ⟨answer, asked⟩ := askHold_of_room (s := s.judged r) mode room (beforeHold (s.entrant r) e b p)
    simp only [appendAll_holds, answer]
    exact ⟨rfl, asked⟩
  · obtain ⟨answer, asked⟩ := askHold_of_noHold (s := s.judged r) mode (beforeHold (s.entrant r) e b p)
    simp only [appendAll_holds, answer, asked]
    exact ⟨rfl, rfl, rfl, rfl, rfl⟩
  · obtain ⟨answer, asked⟩ := askHold_of_full (s := s.judged r) mode full (beforeHold (s.entrant r) e b p)
    simp only [appendAll_holds, answer, asked]
    exact ⟨rfl, rfl, rfl, rfl, rfl⟩

/-! ### Arrivals that are answered at once -/

/-- An arrival that is answered: its slot, the answer queue and the store (R8). -/
theorem answered_arrival {s : State} {r : Request} {m : List Host.Cell} {resp : BusResponse} {ns : List TraceNote} {t : State}
    (h : t = ((((s.judged r).putStore m).answerSlot r.tag (s.entrant r) resp).appendAll ns)) :
    t.slot r.tag = some { s.entrant r with stage := .answering resp } ∧ t.answerQueue = s.answerQueue ++ [r.tag] ∧
      t.store = m := by
  subst h
  exact ⟨((appendAll_logFrame ns _).pathSame.slot _).trans (slot_answerSlot_self _ _ _ _),
    (appendAll_logFrame ns _).answerQueue, (appendAll_logFrame ns _).store⟩

/-- A straddling access is answered FAULT (R78). -/
theorem arrive_of_straddle {s : State} {r : Request} {e : EntryIndex} {base limit : Word} {offset : Nat}
    (ok : protocolError r = none) (h : s.early r = .overlay e base limit offset)
    (out : ¬ (base.toNat ≤ r.addr.toNat ∧ r.addr.toNat + r.size.bytes - 1 ≤ limit.toNat)) : ∃ ns,
    s.arrive r = .next ((((s.judged r).putStore s.store).answerSlot r.tag (s.entrant r) faultResponse).appendAll ns) := by
  have right := arriveRight_of_overlay h
  rw [serveOverlay_of_straddle out] at right
  exact ⟨_, (arrive_of_right ok).trans right⟩

/-- An access that the store serves is answered with its response (R76, R77). -/
theorem arrive_of_served {s : State} {r : Request} {e : EntryIndex} {base limit : Word} {offset : Nat} {resp : BusResponse}
    {m : List Host.Cell} (ok : protocolError r = none) (h : s.early r = .overlay e base limit offset)
    (hs : serveOverlay base limit offset r s.store = .served resp m) : ∃ ns,
    s.arrive r = .next ((((s.judged r).putStore m).answerSlot r.tag (s.entrant r) resp).appendAll ns) := by
  have right := arriveRight_of_overlay h
  rw [hs] at right
  exact ⟨_, (arrive_of_right ok).trans right⟩

theorem arrive_of_fault {s : State} {r : Request} {e : EntryIndex} (ok : protocolError r = none) (h : s.early r = .fault e) :
    ∃ ns, s.arrive r =
      .next ((((s.judged r).putStore s.store).answerSlot r.tag (s.entrant r) faultResponse).appendAll ns) :=
  ⟨_, (arrive_of_right ok).trans (arriveRight_of_fault h)⟩

/-- Settles O21: FAULT and a straddle leave the store, a READ or FETCH reads it, and a WRITE writes its bytes alone. -/
theorem overlayAndFaultAnswerAtArrival : Obligations.OverlayAndFaultAnswerAtArrival := by
  intro s r hs ok sound store
  have row := exec_requestArrival_of_admits hs
  refine ⟨fun e he => ?_, fun e base limit offset he => ⟨fun out => ?_, fun low high kind => ?_, fun low high kind len => ?_⟩⟩
  · obtain ⟨ns, ht⟩ := arrive_of_fault ok he
    obtain ⟨own, answer, kept⟩ := answered_arrival rfl
    exact ⟨_, _, row.trans ht, own, rfl, answer, kept⟩
  · obtain ⟨ns, ht⟩ := arrive_of_straddle ok he out
    obtain ⟨own, answer, kept⟩ := answered_arrival rfl
    exact ⟨_, _, row.trans ht, own, rfl, answer, kept⟩
  · have served := serveOverlay_of_inside (m := s.store) (overlay_fits sound he) low high
    rw [if_neg kind] at served
    obtain ⟨ns, ht⟩ := arrive_of_served ok he served
    obtain ⟨own, answer, kept⟩ := answered_arrival rfl
    exact ⟨_, _, _, row.trans ht, own, rfl, answer, Memory.readRange_length _ _ _,
      fun k hk => Memory.readRange_getElem? _ hk, kept⟩
  · have served := serveOverlay_of_inside (m := s.store) (overlay_fits sound he) low high
    rw [if_pos kind, List.take_of_length_le len.le] at served
    obtain ⟨ns, ht⟩ := arrive_of_served ok he served
    obtain ⟨own, answer, kept⟩ := answered_arrival rfl
    refine ⟨_, _, row.trans ht, own, rfl, answer, fun k hk => ?_, fun a ha => ?_⟩
    · rw [kept]
      exact Memory.read_writeRange store.canonical _ (len ▸ hk)
    · rw [kept]
      exact Memory.read_writeRange_of_outside _ (len ▸ ha)

end Sys2Proof.Machine
end

-- ==== Grants and returns ====
section
/-! O23 to O25: the arbiter's grant, and a return for a slot, an orphan or an injected record (R14 to R19, R41, R108, R109). -/

namespace Sys2Proof.Machine

/-! ### Grants -/

/-- The grant goes to the path candidate (R14). -/
theorem grant_of_path {s : State} {u : Tag} {x : Transaction} (room : s.issueList.length < 8) (hu : s.pathCandidate = some u)
    (hx : s.slot u = some x) (turn : s.injectedCandidate = none ∨ s.fairness ≠ 4) : s.grant = s.grantPath u x := by
  have granted : s.grantTo u = s.grantPath u x := by simp [State.grantTo, hx]
  unfold State.grant
  rw [if_pos room, hu, ← granted]
  cases hi : s.injectedCandidate with
  | none => rfl
  | some a => exact if_neg (turn.resolve_left (by simp [hi]))

/-- The grant goes to the injected candidate (R14). -/
theorem grant_of_injected {s : State} {a : Access} (room : s.issueList.length < 8) (ha : s.injectedCandidate = some a)
    (turn : s.pathCandidate = none ∨ s.fairness = 4) : s.grant = s.grantInjected a := by
  unfold State.grant
  rw [if_pos room, ha]
  cases hu : s.pathCandidate with
  | none => rfl
  | some u => exact if_pos (turn.resolve_left (by simp [hu]))

theorem grant_of_idle {s : State} (h : 8 ≤ s.issueList.length ∨ (s.pathCandidate = none ∧ s.injectedCandidate = none)) :
    s.grant = s := by
  unfold State.grant
  rcases h with h | ⟨hu, ha⟩
  · exact if_neg (Nat.not_lt.2 h)
  · rw [hu, ha]
    exact ite_self s

theorem grantPath_fairness (s : State) (u : Tag) (x : Transaction) :
    (s.grantPath u x).fairness = if s.injectedCandidate = none then 0 else s.fairness + 1 := by
  unfold State.grantPath
  cases s.injectedCandidate <;> rfl

/-- Settles O23: the candidates are what R14 says, and the grant goes to one of them by the fairness count. -/
theorem grantGoesToOneCandidate : Obligations.GrantGoesToOneCandidate := by
  refine ⟨fun s u hu => pathCandidate_least hu, pathCandidate_eq_none_iff, fun s u x ready room hu hx turn => ?_,
    fun s a ready room ha turn => ?_, fun s ready idle => ?_⟩
  · have row : exec .memoryPortGrant s = .next s.grant := event_of_ready ready _
    rw [row, grant_of_path room hu hx turn, ← grantPath_fairness s u x]
    rfl
  · have row : exec .memoryPortGrant s = .next s.grant := event_of_ready ready _
    rw [row, grant_of_injected room ha turn]
    rfl
  · have row : exec .memoryPortGrant s = .next s.grant := event_of_ready ready _
    rw [row, grant_of_idle idle]

/-! ### Returns for an orphan or an injected record -/

theorem takeReturn_of_orphan {s : State} {u : Tag} {m : MemRequest} {rest : List IssueEntry} {x : Transaction}
    (hi : s.issueList = ⟨.slot u, m⟩ :: rest) (hx : s.slot u = some x) (ho : x.stage = .orphan) (ret : MemReturn) :
    s.takeReturn ret = (s.putIssue rest).freeSlot u := by
  have hx' : (s.putIssue rest).slot u = some x := hx
  unfold State.takeReturn
  rw [hi]
  change State.deliverReturn s.headGrant (.slot u) ret (s.putIssue rest) = _
  simp only [State.deliverReturn, hx', ho]

theorem takeReturn_of_issued {s : State} {u : Tag} {m : MemRequest} {rest : List IssueEntry} {x : Transaction}
    (hi : s.issueList = ⟨.slot u, m⟩ :: rest) (hx : s.slot u = some x) (hs : x.stage = .issued) (ret : MemReturn) :
    s.takeReturn ret = (s.putIssue rest).returnToSlot u x (fitReturn s.headGrant x.request.size ret) := by
  have hx' : (s.putIssue rest).slot u = some x := hx
  unfold State.takeReturn
  rw [hi]
  change State.deliverReturn s.headGrant (.slot u) ret (s.putIssue rest) = _
  simp only [State.deliverReturn, hx', hs]

theorem takeReturn_of_injected {s : State} {id : Byte} {m : MemRequest} {rest : List IssueEntry}
    (hi : s.issueList = ⟨.injected id, m⟩ :: rest) (ret : MemReturn) :
    s.takeReturn ret = (s.putIssue rest).returnToAccess s.headGrant id ret := by
  unfold State.takeReturn
  rw [hi]
  rfl

theorem takeReturn_of_empty {s : State} (hi : s.issueList = []) (ret : MemReturn) : s.takeReturn ret = s := by
  unfold State.takeReturn
  rw [hi]

/-- A finished record, by the status of its return (R109). -/
theorem finish_eq (ret : MemReturn) (a : Access) : a.finish ret =
    { a with
      state := if ret.status = .done then .done else .faulted
      data := if ret.status = .done ∧ a.kind = .peek then ret.data else a.data } := by
  unfold Access.finish
  cases ret.status with
  | fault => rfl
  | done => cases a.kind <;> rfl

/-- Settles O24: the oldest entry of the issue list says whose the return is. -/
theorem returnForOrphanOrInjectedRecord : Obligations.ReturnForOrphanOrInjectedRecord := by
  have row : ∀ (s : State) (r : MemReturn), s.ready → exec (.memoryReturn r) s = .next (s.takeReturn r) :=
    fun s r ready => event_of_ready ready _
  refine ⟨fun s r ready hi => ?_, fun s r m rest u x ready hi hx ho => ?_, fun s r m rest id ready hi => ?_⟩
  · rw [row s r ready, takeReturn_of_empty hi]
  · rw [row s r ready, takeReturn_of_orphan hi hx ho]
    rfl
  · rw [row s r ready, takeReturn_of_injected hi]
    simp only [State.returnToAccess, finish_eq]
    rfl

/-! ### The late result -/

/-- A late FAULT decides (R18, R41). -/
theorem lateResult_of_fault {s : State} {x : Transaction} {r : MemReturn} {i : EntryIndex}
    (hi : decidingEntry s.table (s.lateFired x r) = some i) (hf : s.table[i].config.action = .fault) :
    s.lateResult x r = .fault := by
  simp only [State.lateResult, hi, Option.any_some, hf, decide_true, if_true]

theorem decider_not_fault {s : State} {x : Transaction} {r : MemReturn}
    (h : ∀ i, decidingEntry s.table (s.lateFired x r) = some i → s.table[i].config.action ≠ .fault) :
    ((decidingEntry s.table (s.lateFired x r)).any fun i => decide (s.table[i].config.action = .fault)) = false := by
  cases hd : decidingEntry s.table (s.lateFired x r) with
  | none => rfl
  | some i => exact decide_eq_false (h i hd)

/-- Otherwise the hold that the early disposition asks for (R18). -/
theorem lateResult_of_early {s : State} {x : Transaction} {r : MemReturn} {e : EntryIndex} {b : Nat} {p : Policy}
    (early : x.disposition = some (.hold e .after b p))
    (h : ∀ i, decidingEntry s.table (s.lateFired x r) = some i → s.table[i].config.action ≠ .fault) :
    s.lateResult x r = .hold e b p := by
  simp only [State.lateResult, decider_not_fault h, early, earlyAfterHold]
  rfl

theorem earlyAfterHold_eq_none {d : Option Disposition} (h : ∀ e b p, d ≠ some (.hold e .after b p)) :
    earlyAfterHold d = none := by
  unfold earlyAfterHold
  split
  · exact absurd rfl (h _ _ _)
  · rfl

/-- Otherwise the hold of a late HOLD entry (R41). -/
theorem lateResult_of_late {s : State} {x : Transaction} {r : MemReturn} {i : EntryIndex}
    (early : ∀ e b p, x.disposition ≠ some (.hold e .after b p))
    (hi : decidingEntry s.table (s.lateFired x r) = some i) (ha : s.table[i].config.action = .hold) :
    s.lateResult x r = .hold i s.table[i].config.budget s.table[i].config.policy := by
  have clear := decider_not_fault (s := s) (x := x) (r := r) fun j hj => by
    obtain rfl := Option.some.inj (hi.symm.trans hj)
    rw [ha]
    decide
  simp only [State.lateResult, clear, earlyAfterHold_eq_none early]
  rw [hi]
  exact if_pos ha

/-- Otherwise the slot answers (R18). -/
theorem lateResult_of_none {s : State} {x : Transaction} {r : MemReturn}
    (early : ∀ e b p, x.disposition ≠ some (.hold e .after b p))
    (h : decidingEntry s.table (s.lateFired x r) = none) : s.lateResult x r = .answer := by
  simp [State.lateResult, earlyAfterHold_eq_none early, h]

/-- A WRITE or a faulted return is not late-evaluated (R40). -/
theorem lateFired_of_off {s : State} {x : Transaction} {r : MemReturn} (h : x.request.kind = .write ∨ r.status = .fault) :
    s.lateFired x r = [] := by
  have off : lateEvaluated x r = false := by rcases h with h | h <;> simp [lateEvaluated, h]
  simp [State.lateFired, off]

/-! ### Returns for an ISSUED slot -/

/-- The match unit's table and the latch take new contents (R34, R40). -/
def State.putMatch (tb : Vector MatchEntry 16) (l : Bool) (s : State) : State := { s with table := tb, eventLatch := l }

/-- A return changes the match table and the latch before anything else (R17, R40). -/
theorem lateState_eq (x : Transaction) (r : MemReturn) (s : State) : ∃ tb l, s.lateState x r = s.putMatch tb l := by
  unfold State.lateState
  split
  · exact ⟨_, _, rfl⟩
  · exact ⟨s.table, s.eventLatch, rfl⟩

/-- A slot that answers a return, with the records of the event: the answer queue has its tag, and the hold queue is as it was
(R18, R20). -/
structure ReturnAnswered (s : State) (u : Tag) (x : Transaction) (resp : BusResponse) (t : State) : Prop where
  slot : t.slot u = some { x with stage := .answering resp }
  answerQueue : t.answerQueue = s.answerQueue ++ [u]
  holds : t.holds = s.holds
  nextHoldId : t.nextHoldId = s.nextHoldId
  flag : t.attention.hold = s.attention.hold
  refusedHolds : t.refusedHolds = s.refusedHolds

theorem returnAnswered (s : State) (u : Tag) (x : Transaction) (resp : BusResponse) (ns : List TraceNote) :
    ReturnAnswered s u x resp ((s.answerSlot u x resp).appendAll ns) where
  slot := ((appendAll_logFrame ns _).pathSame.slot _).trans (slot_answerSlot_self _ _ _ _)
  answerQueue := (appendAll_logFrame ns _).answerQueue
  holds := (appendAll_holds ns _).1
  nextHoldId := (appendAll_holds ns _).2.1
  flag := (appendAll_holds ns _).2.2.1
  refusedHolds := (appendAll_holds ns _).2.2.2

theorem returnToSlot_of_fault {s : State} {x : Transaction} {r : MemReturn} (h : s.lateResult x r = .fault) (u : Tag) :
    ∃ ns, s.returnToSlot u x r = ((s.lateState x r).answerSlot u x faultResponse).appendAll ns := by
  unfold State.returnToSlot
  rw [h]
  exact ⟨_, rfl⟩

theorem returnToSlot_of_answer {s : State} {x : Transaction} {r : MemReturn} (h : s.lateResult x r = .answer) (u : Tag) :
    ∃ ns, s.returnToSlot u x r = ((s.lateState x r).answerSlot u x (returnedResponse x r)).appendAll ns := by
  unfold State.returnToSlot
  rw [h]
  exact ⟨_, rfl⟩

theorem returnToSlot_of_hold {s : State} {x : Transaction} {r : MemReturn} {e : EntryIndex} {b : Nat} {p : Policy}
    (h : s.lateResult x r = .hold e b p) (u : Tag) : ∃ ns, s.returnToSlot u x r =
      ((s.lateState x r).holdResponse u x (returnedResponse x r) (afterHold x (returnedResponse x r) e b p)).appendAll ns := by
  unfold State.returnToSlot
  rw [h]
  exact ⟨_, rfl⟩

/-- The late evaluation of a return looks at no field that the return's leaving of the issue list changes. -/
theorem lateResult_putIssue (s : State) (rest : List IssueEntry) (x : Transaction) (r : MemReturn) :
    (s.putIssue rest).lateResult x r = s.lateResult x r := rfl

/-- The hold of a response that has returned is created: record, id, flag, and the slot is held with its response (R18, R52). -/
theorem holdResponse_of_room {s : State} (mode : s.noHold = false) (room : s.holds.length < 4) (u : Tag) (x : Transaction)
    (resp : BusResponse) (g : Hold) :
    s.holdResponse u x resp g = (s.askHold g).putSlot u { x with stage := .heldResponse resp } := by
  unfold State.holdResponse
  rw [(askHold_of_room mode room g).1]

/-- The state in which a hold asked for was suppressed, or refused and counted (R53, R54, R56). -/
def State.declined (s : State) : State :=
  { s with refusedHolds := if s.noHold then s.refusedHolds else min (s.refusedHolds + 1) 65535 }

/-- A declined hold leaves the response to be answered as memory gave it (R18). -/
theorem holdResponse_of_declined {s : State} (h : s.noHold = true ∨ 4 ≤ s.holds.length) (u : Tag) (x : Transaction)
    (resp : BusResponse) (g : Hold) : s.holdResponse u x resp g = s.declined.answerSlot u x resp := by
  unfold State.holdResponse State.declined
  by_cases mode : s.noHold = true
  · obtain ⟨answer, asked⟩ := askHold_of_noHold mode g
    rw [answer, asked, if_pos mode]
  · obtain ⟨answer, asked⟩ := askHold_of_full (by simpa using mode) (h.resolve_left mode) g
    rw [answer, asked, if_neg mode]

/-- What a return that asks for a hold leaves when the record is created (R18, R51, R52, R70). -/
structure ReturnHeld (s : State) (u : Tag) (x : Transaction) (resp : BusResponse) (g : Hold) (t : State) : Prop where
  slot : t.slot u = some { x with stage := .heldResponse resp }
  holds : t.holds = s.holds ++ [{ g with id := s.newHoldId }]
  answerQueue : t.answerQueue = s.answerQueue
  nextHoldId : t.nextHoldId = s.newHoldId + 1
  flag : t.attention.hold = some s.newHoldId
  refusedHolds : t.refusedHolds = s.refusedHolds

theorem returnHeld {s : State} (mode : s.noHold = false) (room : s.holds.length < 4) (u : Tag) (x : Transaction)
    (resp : BusResponse) (g : Hold) (ns : List TraceNote) :
    ReturnHeld s u x resp g ((s.holdResponse u x resp g).appendAll ns) := by
  obtain ⟨-, holds, next, flag, refused⟩ := askHold_of_room mode room g
  obtain ⟨kept, keptNext, keptFlag, keptRefused⟩ := appendAll_holds ns (s.holdResponse u x resp g)
  have logged := appendAll_logFrame ns (s.holdResponse u x resp g)
  rw [holdResponse_of_room mode room] at *
  exact
    { slot := (logged.pathSame.slot u).trans (slot_putSlot_self _ _ _)
      holds := kept.trans holds
      answerQueue := logged.answerQueue.trans (askHold_transit g s).2
      nextHoldId := keptNext.trans next
      flag := keptFlag.trans flag
      refusedHolds := keptRefused.trans refused }

/-- The row of a return for an ISSUED slot. -/
theorem exec_memoryReturn_of_issued {s : State} {u : Tag} {m : MemRequest} {rest : List IssueEntry} {x : Transaction}
    (ready : s.ready) (hi : s.issueList = ⟨.slot u, m⟩ :: rest) (hx : s.slot u = some x) (hs : x.stage = .issued)
    (q : MemReturn) : exec (.memoryReturn q) s =
      .next ((s.putIssue rest).returnToSlot u x (fitReturn s.headGrant x.request.size q)) := by
  have row : exec (.memoryReturn q) s = .next (s.takeReturn q) := event_of_ready ready _
  rw [row, takeReturn_of_issued hi hx hs]

/-- Settles O25: the late result by its cases, and the return by its late result. -/
theorem returnAnswersOrHolds : Obligations.ReturnAnswersOrHolds := by
  refine ⟨fun s x r i => lateResult_of_fault, fun s x r e b p => lateResult_of_early, fun s x r i => lateResult_of_late,
    fun s x r => lateResult_of_none, fun s x r => lateFired_of_off, fun g z q => ⟨rfl, rfl, fitReturn_length g z q,
      fun k hz hq => fitReturn_getElem? g hz hq, fitReturn_of_length g⟩, ?_⟩
  intro s q r m rest u x ready hi hx hs tag hr
  have row := exec_memoryReturn_of_issued ready hi hx hs q
  rw [← hr] at row
  have returned := slotReturned (s.putIssue rest) u x r
  obtain ⟨slots, st, -, own⟩ := slotReturned_slot returned
  have frame := slotReturned_holdFrame returned
  obtain ⟨tb, l, late⟩ := lateState_eq x r (s.putIssue rest)
  rw [late] at frame
  have own_stage : ∀ {st'}, ((s.putIssue rest).returnToSlot u x r).slot u = some { x with stage := st' } → st = st' :=
    fun h => congrArg Transaction.stage (Option.some.inj (own.symm.trans h))
  refine ⟨_, { x with stage := st }, row, frame.issueList, own, rfl, rfl, rfl, slots, frame.store, frame.injected,
    frame.fairness, fun hl => ?_, fun hl => ?_, fun e b p hl => ⟨fun mode room => ?_, fun no => ?_⟩⟩
  · obtain ⟨ns, ht⟩ := returnToSlot_of_fault ((lateResult_putIssue s rest x r).trans hl) u
    have answered := returnAnswered ((s.putIssue rest).lateState x r) u x faultResponse ns
    rw [← ht, late] at answered
    exact ⟨own_stage answered.slot, answered.answerQueue, answered.holds, answered.nextHoldId, answered.flag,
      answered.refusedHolds⟩
  · obtain ⟨ns, ht⟩ := returnToSlot_of_answer ((lateResult_putIssue s rest x r).trans hl) u
    have answered := returnAnswered ((s.putIssue rest).lateState x r) u x (returnedResponse x r) ns
    rw [← ht, late] at answered
    exact ⟨own_stage answered.slot, answered.answerQueue, answered.holds, answered.nextHoldId, answered.flag,
      answered.refusedHolds⟩
  · obtain ⟨ns, ht⟩ := returnToSlot_of_hold ((lateResult_putIssue s rest x r).trans hl) u
    rw [late] at ht
    have held := returnHeld (s := (s.putIssue rest).putMatch tb l) mode room u x (returnedResponse x r)
      (afterHold x (returnedResponse x r) e b p) ns
    rw [← ht] at held
    exact ⟨own_stage held.slot, by rw [held.holds, ← tag]; rfl, held.answerQueue, held.nextHoldId, held.flag,
      held.refusedHolds⟩
  · obtain ⟨ns, ht⟩ := returnToSlot_of_hold ((lateResult_putIssue s rest x r).trans hl) u
    rw [late, holdResponse_of_declined (s := (s.putIssue rest).putMatch tb l) no] at ht
    have answered := returnAnswered ((s.putIssue rest).putMatch tb l).declined u x
      (returnedResponse x r) ns
    rw [← ht] at answered
    exact ⟨own_stage answered.slot, answered.answerQueue, answered.holds, answered.nextHoldId, answered.flag,
      answered.refusedHolds⟩

end Sys2Proof.Machine
end

-- ==== Ending a BEFORE hold ====
section
/-! O39: RELEASE, FAIL and expiry of a BEFORE hold move its slot on, and then unpark (R11, R57, R62, R65, R68). -/

namespace Sys2Proof.Machine

/-- Where a BEFORE hold leaves its slot (R57). -/
def movedOn (proceeds : Bool) (g : Hold) (x : Transaction) : Transaction :=
  if proceeds then
    { x with
      request := { x.request with data := if g.kind = .write then g.data else x.request.data }
      stage := .waiting }
  else { x with stage := .answering ⟨.fault, []⟩ }

theorem movedOn_stage (proceeds : Bool) (g : Hold) (x : Transaction) : (movedOn proceeds g x).stage ≠ .parked := by
  cases proceeds <;> simp [movedOn]

theorem slot_deliver_before {s : State} {g : Hold} {x : Transaction} (hp : g.point = .before) (hx : s.slot g.tag = some x)
    (proceeds : Bool) : (s.deliver proceeds g).slot g.tag = some (movedOn proceeds g x) := by
  unfold State.deliver
  cases proceeds with
  | true => simp only [hx, hp, if_true, slot_putSlot_self, movedOn]
  | false =>
    simp only [hx, Bool.false_eq_true, if_false, slot_answerSlot_self, movedOn]
    rfl

/-- Ending a BEFORE hold: its slot moves on, and then PARKED slots unpark (R57). -/
theorem endHold_of_before {s : State} {g : Hold} {x : Transaction} (sound : s.PathSound) (hg : g ∈ s.holds)
    (hp : g.point = .before) (hx : s.slot g.tag = some x) (mayHold proceeds expiry : Bool) (o : TraceOutcome) :
    ∃ u : State, (∀ v, v ≠ g.tag → u.slot v = s.slot v) ∧ u.slot g.tag = some (movedOn proceeds g x) ∧
      Unparked u (s.endHold mayHold proceeds expiry o g) := by
  have logged := ((append_logFrame ((s.removeHold g.id).deliver proceeds g) (g.endNote (some g.id) o)).trans
    (postIf_logFrame expiry .expiry g.id _)).pathSame
  have hx' : (s.removeHold g.id).slot g.tag = some x := hx
  refine ⟨_, fun v hv => (logged.slot v).trans ((slot_deliver hx' proceeds).1 v hv),
    (logged.slot _).trans (slot_deliver_before hp hx' proceeds), ?_⟩
  unfold State.endHold
  simp only [hp]
  exact unparkPass_unparked ((deliver_sound sound hg proceeds).of_same logged) mayHold

/-- What the end of a BEFORE hold leaves in the slots (R11, R12, R57). -/
structure BeforeEnded (s : State) (g : Hold) (x : Transaction) (proceeds : Bool) (t : State) : Prop where
  own : t.slot g.tag = some (movedOn proceeds g x)
  rest : ∀ u y, u ≠ g.tag → s.slot u = some y → y.stage ≠ .parked → t.slot u = some y
  free : ∀ u, u ≠ g.tag → s.slot u = none → t.slot u = none
  parked : ∀ u y, s.slot u = some y → y.stage = .parked →
    ∃ z, t.slot u = some z ∧ z.position = y.position ∧ z.request = y.request ∧ z.disposition = y.disposition ∧
      (z.stage = .parked ∨ z.stage = .waiting ∨ z.stage = .held)

theorem endHold_beforeEnded {s : State} {g : Hold} {x : Transaction} (sound : s.PathSound) (hg : g ∈ s.holds)
    (hp : g.point = .before) (hx : s.slot g.tag = some x) (mayHold proceeds expiry : Bool) (o : TraceOutcome) :
    BeforeEnded s g x proceeds (s.endHold mayHold proceeds expiry o g) := by
  obtain ⟨w, others, own, unparked⟩ := endHold_of_before sound hg hp hx mayHold proceeds expiry o
  have held : s.slotIn g.tag (· = .held) := (sound.before g.tag).1 ⟨g, hg, rfl, hp⟩
  constructor
  case own =>
    rcases unparked g.tag with h | ⟨y, st, hy, parked, -⟩
    · exact h.trans own
    · obtain rfl := Option.some.inj (own.symm.trans hy)
      exact absurd parked (movedOn_stage proceeds g x)
  case rest =>
    intro u y hu hy stage
    rcases unparked u with h | ⟨z, st, hz, parked, -⟩
    · exact h.trans ((others u hu).trans hy)
    · obtain rfl := Option.some.inj (hy.symm.trans ((others u hu).symm.trans hz))
      exact absurd parked stage
  case free =>
    intro u hu hy
    rcases unparked u with h | ⟨z, st, hz, -⟩
    · exact h.trans ((others u hu).trans hy)
    · rw [others u hu, hy] at hz
      cases hz
  case parked =>
    intro u y hy stage
    have hu : u ≠ g.tag := by
      rintro rfl
      obtain ⟨z, hz, held⟩ := held
      obtain rfl := Option.some.inj (hy.symm.trans hz)
      rw [stage] at held
      cases held
    rcases unparked u with h | ⟨z, st, hz, -, hst, hu'⟩
    · exact ⟨y, h.trans ((others u hu).trans hy), rfl, rfl, rfl, .inl stage⟩
    · obtain rfl := Option.some.inj (hy.symm.trans ((others u hu).symm.trans hz))
      exact ⟨_, hu', rfl, rfl, rfl, .inr hst⟩

/-- A command that ends a hold is answered OK with the hold ended. -/
theorem exec_endHold {s : State} {b : Batch} {g : Hold} {c : Command} {f : Hold → State → Reply} {proceeds : Bool}
    {o : TraceOutcome} (run : s.runs b c) (find : s.findHold g.id = some g)
    (hf : f g s = done (s.endHold true proceeds false o g)) :
    s.command c (withHold g.id f) = .next ((s.endHold true proceeds false o g).answered b c .ok []) := by
  refine command_done run ?_ (endHold_holdFrame _ _ _ _ s g).batch
  simp only [withHold, find, hf]

theorem exec_holdExpiry_of_due {s : State} {g : Hold} (live : s.porAsserted = false) (due : s.dueHold = some g) :
    ∃ o, exec .holdExpiry s = .next (s.endHold true (decide (g.policy = .proceed)) true o g) := by
  have row : exec .holdExpiry s = .next s.expireNext := dueEvent_of_live live _
  rw [row]
  simp only [State.expireNext, due, State.expire]
  cases g.policy <;> exact ⟨_, rfl⟩

/-- Each of the three rows ends the hold, and a command's answer is recorded (R57, R62, R65, R68). -/
theorem exec_ends_hold {s : State} {b : Batch} {g : Hold} {i : Instr} {proceeds : Bool} (find : s.findHold g.id = some g)
    (row : (s.runs b (.release g.id) ∧ i = .release g.id ∧ proceeds = true) ∨
      (s.runs b (.fail g.id) ∧ i = .fail g.id ∧ proceeds = false) ∨
      (s.porAsserted = false ∧ s.dueHold = some g ∧ i = .holdExpiry ∧ proceeds = decide (g.policy = .proceed))) :
    ∃ expiry o, exec i s = .next (s.endHold true proceeds expiry o g) ∨
      ∃ c, exec i s = .next ((s.endHold true proceeds expiry o g).answered b c .ok []) := by
  rcases row with ⟨run, rfl, rfl⟩ | ⟨run, rfl, rfl⟩ | ⟨live, due, rfl, rfl⟩
  · exact ⟨false, _, .inr ⟨_, exec_endHold (f := releaseHold) run find rfl⟩⟩
  · exact ⟨false, _, .inr ⟨_, exec_endHold (f := failHold) run find rfl⟩⟩
  · obtain ⟨o, ht⟩ := exec_holdExpiry_of_due live due
    exact ⟨true, o, .inl ht⟩

/-- Settles O39: each of the three rows ends the hold, which moves its slot on and then unparks; the answer of a command
changes the batch alone. -/
theorem unparkingTouchesParkedSlotsOnly : Obligations.UnparkingTouchesParkedSlotsOnly := by
  intro s b g x i proceeds sound hp find hx row
  obtain ⟨expiry, o, ht⟩ := exec_ends_hold find row
  obtain ⟨own, rest, free, parked⟩ := endHold_beforeEnded sound (mem_of_findHold find) hp hx true proceeds expiry o
  have frame := endHold_holdFrame true proceeds expiry o s g
  rcases ht with ht | ⟨c, ht⟩ <;>
    exact ⟨_, ht, own, rest, free, parked, frame.issueList, frame.injected, frame.store, frame.table, frame.eventLatch,
      frame.fairness, frame.linkAddress, frame.groupAddress, frame.noHold, frame.tickCount, frame.pulse⟩

end Sys2Proof.Machine
end

-- ==== Resets and the requester port ====
section
/-! O5, O16, O22 and O47: the state right after reset, power-on reset, the requester's port, and the requester reset (R5, R20,
R21, R23, R71, R144, R177 to R181). -/

namespace Sys2Proof.Machine

/-! ### The requester reset -/

theorem requesterReset_batch (s : State) : s.requesterReset.batch = s.batch := (appendAll_logFrame _ s).batch

theorem assertRqrstIn_of_low {s : State} (h : s.rqrstIn = false) :
    s.assertRqrstIn = { s.requesterReset with rqrstIn := true } := if_neg (by simp [h])

theorem assertRqrstIn_of_high {s : State} (h : s.rqrstIn = true) : s.assertRqrstIn = s := if_pos h

theorem startPulse_of_none {s : State} (h : s.pulse = none) :
    s.startPulse = { s.requesterReset with pulse := some 100 } := if_neg (by simp [State.pulseInProgress, h])

theorem startPulse_of_running {s : State} {n : Nat} (h : s.pulse = some (n + 1)) :
    s.startPulse = { s with pulse := some 100 } := if_pos (by simp [State.pulseInProgress, h])

/-- RESET-REQUESTER is answered OK with its pulse started (R170). -/
theorem exec_resetRequester {s : State} {b : Batch} (run : s.runs b .resetRequester) :
    exec .resetRequester s = .next (s.startPulse.answered b .resetRequester .ok []) := by
  refine command_done run (t := s.startPulse) rfl ?_
  unfold State.startPulse
  split
  · rfl
  · exact requesterReset_batch s

/-- Settles O47: the line's edge and the start of a pulse begin a requester reset, which `resetSlot` describes slot by slot. -/
theorem requesterResetClearsThePath : Obligations.RequesterResetClearsThePath := by
  refine ⟨fun s ready low => ?_, fun s ready high => ?_, fun s ready => event_of_ready ready _, fun s b run none => ?_,
    fun s b n run running => ?_, fun s => ⟨rfl, fun u x hx hs => ?_, fun u off => ?_⟩⟩
  · have row : exec .rqrstInAsserted s = .next s.assertRqrstIn := event_of_ready ready _
    rw [row, assertRqrstIn_of_low low]
  · have row : exec .rqrstInAsserted s = .next s.assertRqrstIn := event_of_ready ready _
    rw [row, assertRqrstIn_of_high high]
  · rw [exec_resetRequester run, startPulse_of_none none]
  · rw [exec_resetRequester run, startPulse_of_running running]
  · rw [requesterReset_slot, resetSlot_eq_some_iff]
    exact ⟨x, hx, hs, rfl⟩
  · rw [requesterReset_slot, Option.eq_none_iff_forall_ne_some]
    intro y hy
    obtain ⟨x, hx, hs, -⟩ := resetSlot_eq_some_iff.1 hy
    rcases hs with hs | hs
    · exact (off x hx).1 hs
    · exact (off x hx).2 hs

/-! ### The state right after reset -/

theorem reset_slot (t : Tag) : State.reset.slot t = none := by
  simp [State.slot, State.reset]

theorem reset_table (i : EntryIndex) : State.reset.table[i] = MatchEntry.powerOn := by
  simp [State.reset]

theorem reset_tableSound : State.reset.TableSound where
  hits i := by rw [reset_table]; decide
  legal i h := by rw [reset_table] at h; cases h

theorem reset_logNumbered : State.reset.LogNumbered := by
  intro k r h
  have empty : State.reset.log = [] := rfl
  simp [empty] at h

theorem reset_budgetsBounded : State.reset.BudgetsBounded where
  remaining h hm := absurd hm List.not_mem_nil
  extended h hm := absurd hm List.not_mem_nil
  kept t x e p b q hx := by rw [reset_slot] at hx; cases hx
  configured i := by rw [reset_table]; decide

theorem reset_parkingSound : State.reset.ParkingSound := by
  constructor <;> · intro v x hx; rw [reset_slot] at hx; cases hx

theorem reset_linkSound : State.reset.LinkSound where
  link a h := by cases h
  group g h := by cases h
  groupNeedsLink h := by cases h
  offered a h := by cases h
  running h := by cases h
  busy h := by cases h
  addressed b h := by cases h
  forget h := by cases h

theorem reset_responsesFit : State.reset.ResponsesFit where
  count b h := by cases h
  entries b h := by cases h
  room b h := by cases h
  clearing b h := by cases h
  kept r h := by cases h
  sending r h := by cases h

/-- Settles O5: the power-on values are read off, and each property holds of empty queues, free slots and disabled entries. -/
theorem resetIsSound : Obligations.ResetIsSound := by
  have values : ∀ i : EntryIndex, State.reset.table[i].enabled = false ∧ State.reset.table[i].armed = false ∧
      State.reset.table[i].hits = 0 ∧ State.reset.table[i].config = EntryConfig.powerOn := by
    intro i
    rw [reset_table]
    exact ⟨rfl, rfl, rfl, rfl⟩
  refine ⟨⟨reset_slot, rfl, rfl, rfl, values, rfl, rfl, rfl, rfl, rfl, fun _ => rfl, rfl, rfl, rfl, rfl, rfl, rfl, rfl, rfl,
    rfl, rfl, rfl, rfl, rfl, rfl, rfl, rfl, rfl, rfl, rfl, rfl⟩, ⟨rfl, rfl⟩, reset_bounded, ⟨rfl, rfl⟩, reset_tableSound,
    reset_logNumbered, reset_budgetsBounded, List.nodup_nil, sound_of_empty reset_slot rfl rfl rfl rfl, reset_parkingSound,
    reset_linkSound, reset_responsesFit⟩

/-! ### Power-on reset -/

theorem event_of_por {s : State} (h : s.porAsserted = true) (f : State → State) : s.event f = .next s := if_pos h

theorem dueEvent_of_por {s : State} (h : s.porAsserted = true) (f : State → State) : s.dueEvent f = .next s := if_pos h

/-- While POR_N is asserted no row but its own and an arrival changes anything (R180). -/
theorem exec_of_por {c : Instr} {s : State} (h : s.porAsserted = true) (on : c ≠ .porNAsserted)
    (off : ∀ l, c ≠ .porNReleased l) (arrival : ∀ r, c ≠ .requestArrival r) : exec c s = .next s := by
  rcases hk : commandBody c with _ | ⟨k, body⟩
  · rcases he : eventEffect c with _ | f
    · rcases hd : dueEffect c with _ | f
      · cases c <;> cases hk <;> cases he <;> cases hd
        · exact absurd rfl (arrival _)
        · exact absurd rfl on
        · exact absurd rfl (off _)
        · rfl
      · rw [exec_of_dueEffect hd, dueEvent_of_por h]
    · rw [exec_of_eventEffect he, event_of_por h]
  · rw [exec_of_commandBody hk, State.command, event_of_por h]

/-- A request presented at a free port stays presented; one behind another leaves the port as it was (R5). -/
theorem leavePresented_of_free {s : State} {r : Request} (h : s.presented = none ∨ s.presented = some r) :
    s.leavePresented r = { s with presented := some r } := by
  have free : s.portFree r = true := by rcases h with h | h <;> simp [State.portFree, h]
  simp only [State.leavePresented, free, if_true]

theorem leavePresented_of_other {s : State} {r q : Request} (h : s.presented = some q) (hq : q ≠ r) :
    s.leavePresented r = s := by
  have taken : s.portFree r = false := by simp [State.portFree, h, hq]
  simp only [State.leavePresented, taken, Bool.false_eq_true, if_false]

theorem leavePresented_presented (s : State) (r : Request) :
    (s.leavePresented r).presented = if s.presented = none then some r else s.presented := by
  cases hp : s.presented with
  | none => rw [leavePresented_of_free (.inl hp)]; rfl
  | some q =>
    by_cases hq : q = r
    · subst hq
      rw [leavePresented_of_free (.inr hp)]
      rfl
    · rw [leavePresented_of_other hp hq, hp]
      rfl

/-- Settles O16: POR_N's rows put every block at its power-on values, and no other row acts while it is asserted. -/
theorem powerOnResetHoldsEveryBlock : Obligations.PowerOnResetHoldsEveryBlock := by
  refine ⟨fun _ => rfl, fun l s h => if_pos h, fun _ _ => rfl, fun r s h => ?_, fun c s h on off arrival =>
    exec_of_por h on off arrival⟩
  have row : exec (.requestArrival r) s = .next (s.leavePresented r) := if_pos h
  rw [row, ← leavePresented_presented s r]
  rfl

/-! ### The requester port -/

theorem barred_iff (s : State) :
    s.barred = true ↔ s.rqrstIn = true ∨ (∃ n, s.pulse = some (n + 1)) ∨ s.porAsserted = true := by
  have running : s.pulseInProgress = true ↔ ∃ n, s.pulse = some (n + 1) := by
    unfold State.pulseInProgress
    split <;> simp_all
  simp only [State.barred, Bool.or_eq_true, running, or_assoc]

/-- A request that is not accepted in a ready state is left presented (R5). -/
theorem exec_requestArrival_of_left {s : State} {r : Request} (ready : s.ready)
    (h : (s.portFree r && s.accepts r) = false) : exec (.requestArrival r) s = .next (s.leavePresented r) := by
  have row : exec (.requestArrival r) s = s.settle.present r := if_neg (by simp [ready.1])
  rw [row, settle_of_ready ready, State.present, h]
  rfl

/-- Settles O22: a request that is not accepted is left presented, and the oldest answer is shown and taken. -/
theorem requesterPortHandshake : Obligations.RequesterPortHandshake := by
  refine ⟨⟨barred_iff, fun s r ready => ⟨fun free closed => ?_, fun q hq other => ?_⟩⟩, fun s u q ready hq =>
    ⟨?_, fun x r hx hr => ?_⟩⟩
  · have refused : s.accepts r = false := by
      rcases closed with busy | barred
      · simp [State.accepts, Option.isNone_eq_false_iff.2 busy]
      · simp [State.accepts, barred]
    rw [exec_requestArrival_of_left ready (by simp [refused]), leavePresented_of_free free]
  · have taken : s.portFree r = false := by simp [State.portFree, hq, other]
    rw [exec_requestArrival_of_left ready (by simp [taken]), leavePresented_of_other hq other]
  · have row : exec .responseTaken s = .next s.takeResponse := event_of_ready ready _
    rw [row, State.takeResponse, hq]
  · simp [State.presentedResponse, hq, hx, hr]

end Sys2Proof.Machine
end

-- ==== The match table stays sound ====
section
/-! O8: every row keeps each hit counter below its threshold and each enabled entry legal (R32, R43, R45). -/

namespace Sys2Proof.Machine

/-- An entry whose counter is below its threshold, and which is legal where it is enabled (R32, R43, R45). -/
def MatchEntry.Sound (e : MatchEntry) : Prop :=
  e.hits < e.config.threshold ∧ (e.enabled = true → e.config.legal = true)

theorem tableSound_iff (s : State) : s.TableSound ↔ ∀ i : EntryIndex, s.table[i].Sound :=
  ⟨fun h i => ⟨h.hits i, h.legal i⟩, fun h => ⟨fun i => (h i).1, fun i => (h i).2⟩⟩

theorem State.TableSound.of_table {s t : State} (h : s.TableSound) (table : t.table = s.table) : t.TableSound := by
  rw [tableSound_iff] at h ⊢
  rwa [table]

theorem tableSound_dependsOn : DependsOn [.table] State.TableSound :=
  fun _ _ same h => h.of_table (same .table (by decide))

theorem State.TableSound.of_keeps {ps : List Piece} {s t : State} (h : s.TableSound) (k : KeepsAllBut ps s t)
    (apart : Piece.table ∉ ps) : t.TableSound := h.of_table (k.same apart)

theorem setEntry_table (i j : EntryIndex) (e : MatchEntry) (s : State) :
    (s.setEntry i e).table[j] = if j = i then e else s.table[j] := by
  by_cases h : j = i
  · subst h; simp
  · have : i.val ≠ j.val := fun e => h (Fin.ext e.symm)
    simp [h, this]

/-- A sound entry takes the place of another. -/
theorem setEntry_tableSound {s : State} (h : s.TableSound) (i : EntryIndex) {e : MatchEntry} (he : e.Sound) :
    (s.setEntry i e).TableSound := by
  rw [tableSound_iff] at h ⊢
  intro j
  rw [setEntry_table]
  split
  · exact he
  · exact h j

/-- Armed states do not matter for soundness. -/
theorem State.TableSound.of_armFrame {s t : State} (h : s.TableSound) (k : ArmFrame s.table t.table) : t.TableSound where
  hits i := by rw [k.hits, k.config]; exact h.hits i
  legal i := by rw [k.enabled, k.config]; exact h.legal i

/-- An entry that hits counts below its threshold, or returns to 0 (R32). -/
theorem evaluated_tableSound {s : State} (h : s.TableSound) (late : Bool) (r : Request) (data : List Byte) :
    (s.evaluated late r data).TableSound where
  hits i := by
    have below := h.hits i
    rw [evaluated_hits, evaluated_config]
    split
    · split
      · omega
      · next full =>
        simp only [MatchEntry.full, decide_eq_true_eq, Nat.not_le] at full
        exact full
    · exact below
  legal i := by
    rw [evaluated_enabled, evaluated_config]
    exact h.legal i

theorem lateState_tableSound {s : State} (h : s.TableSound) (x : Transaction) (ret : MemReturn) :
    (s.lateState x ret).TableSound := by
  unfold State.lateState
  split
  · exact evaluated_tableSound h _ _ _
  · exact h

theorem arrived_tableSound {s t : State} {r : Request} (h : s.TableSound) (ha : Arrived s r t) : t.TableSound := by
  have judged : (s.judged r).TableSound := evaluated_tableSound (s := s.accepted) (h.of_table rfl) _ _ _
  cases ha with
  | wrong _ => exact h.of_table (appendAll_logFrame _ _).table
  | answered ns _ => exact judged.of_table (appendAll_logFrame ns _).table
  | entered ns => exact judged.of_table ((enter_holdFrame _ _).trans (appendAll_logFrame ns _).toHoldFrame).table

theorem slotReturned_tableSound {s u : State} {t : Tag} {x : Transaction} {ret : MemReturn} (h : s.TableSound)
    (hr : SlotReturned s t x ret u) : u.TableSound :=
  (lateState_tableSound h x ret).of_table (slotReturned_holdFrame hr).table

theorem returned_tableSound {s t : State} {ret : MemReturn} (h : s.TableSound) (hr : Returned s ret t) : t.TableSound := by
  cases hr with
  | none _ => exact h
  | injected _ => exact h.of_table rfl
  | orphan _ _ _ => exact h.of_table rfl
  | @slot _ _ rest _ _ _ _ _ hu => exact slotReturned_tableSound (h.of_table (t := s.putIssue rest) rfl) hu
  | stray _ _ => exact h.of_table rfl

/-- The power-on entry is disabled, with its counter at 0 and a threshold of 1 (R26). -/
theorem powerOn_sound : MatchEntry.powerOn.Sound := ⟨Nat.zero_lt_one, nofun⟩

theorem clearTable_get (s : State) (i : EntryIndex) : s.clearTable.table[i] = MatchEntry.powerOn := by
  simp [State.clearTable]

theorem clearTable_tableSound (s : State) : s.clearTable.TableSound := by
  rw [tableSound_iff]
  intro i
  rw [clearTable_get]
  exact powerOn_sound

theorem clearingEffect_tableSound {s : State} {f : State → State} (h : s.TableSound) (hf : (f s).TableSound) (c : ClearStep) :
    (clearingEffect c f s).TableSound := by
  unfold clearingEffect
  split
  · exact hf
  · exact h

/-! ### The match table's commands -/

theorem withEntry_tableSound {s : State} {f : EntryIndex → State → Reply} (h : s.TableSound) (index : Byte)
    (hf : ∀ i, (f i s).state.TableSound) : (withEntry index f s).state.TableSound := by
  unfold withEntry
  split
  · exact h
  · exact hf _

theorem legal_threshold {c : EntryConfig} (h : c.legal = true) : 0 < c.threshold := by
  simp only [EntryConfig.legal, Bool.and_eq_true, decide_eq_true_eq] at h
  obtain ⟨⟨⟨⟨-, threshold⟩, -⟩, -⟩, -⟩ := h
  exact Nat.pos_of_ne_zero threshold

/-- A stored image is disabled, with its counter at 0 below a legal threshold (R43, R44). -/
theorem imageEntry_sound {im : List Byte} (h : (imageFields im).legal = true) : (imageEntry im).Sound :=
  have below : 0 < (imageFields im).threshold := legal_threshold h
  ⟨below, nofun⟩

theorem writeEntryAt_tableSound {s : State} (h : s.TableSound) (im : List Byte) (i : EntryIndex) :
    (writeEntryAt im i s).state.TableSound := by
  unfold writeEntryAt
  split
  · exact h
  · split
    · next hl => exact setEntry_tableSound h i (imageEntry_sound (Bool.and_eq_true_iff.1 hl).2)
    · exact h

/-- ENABLE-ENTRY enables a legal entry alone (R45). -/
theorem enableEntryAt_tableSound {s : State} (h : s.TableSound) (i : EntryIndex) :
    (enableEntryAt i s).state.TableSound := by
  unfold enableEntryAt
  split
  · exact h
  · split
    · next hl => exact setEntry_tableSound h i ⟨h.hits i, fun _ => hl⟩
    · exact h

theorem disableEntryAt_tableSound {s : State} (h : s.TableSound) (i : EntryIndex) :
    (disableEntryAt i s).state.TableSound :=
  setEntry_tableSound h i ⟨h.hits i, nofun⟩

theorem armEntryAt_tableSound {s : State} (h : s.TableSound) (a : Bool) (i : EntryIndex) :
    (armEntryAt a i s).state.TableSound := h.of_armFrame (setArmed_armFrame i a s.table)

theorem clearCountAt_tableSound {s : State} (h : s.TableSound) (i : EntryIndex) : (clearCountAt i s).state.TableSound :=
  setEntry_tableSound h i ⟨Nat.zero_lt_of_lt (h.hits i), h.legal i⟩

theorem tableSound_kept : Kept [.table] State.TableSound where
  depends := tableSound_dependsOn
  queue := by decide
  inReset por l s := reset_tableSound.of_table rfl
  present r s h := h.of_table rfl
  arrive r s t h _ ha := arrived_tableSound h ha
  due c f hf hm s h := by cases c <;> cases hf <;> exact absurd hm (by decide)
  event c f hf hm s h := by
    cases c <;> cases hf
    case memoryReturn r => exact returned_tableSound h (returned s r)
    case clearUnitMatchTable =>
      exact clearingEffect_tableSound h ((clearTable_tableSound s).of_keeps (setClearing_keeps _ _) (by decide)) _
    all_goals exact absurd hm Bool.false_ne_true
  command c k body hk hm s h := by
    cases c <;> cases hk
    case writeEntry i im => exact withEntry_tableSound h i fun j => writeEntryAt_tableSound h im j
    case enableEntry i => exact withEntry_tableSound h i fun j => enableEntryAt_tableSound h j
    case disableEntry i => exact withEntry_tableSound h i fun j => disableEntryAt_tableSound h j
    case armEntry i => exact withEntry_tableSound h i fun j => armEntryAt_tableSound h true j
    case disarmEntry i => exact withEntry_tableSound h i fun j => armEntryAt_tableSound h false j
    case clearCount i => exact withEntry_tableSound h i fun j => clearCountAt_tableSound h j
    all_goals exact absurd hm Bool.false_ne_true

/-- Settles O8: evaluations and the match table's commands alone touch the table, and each leaves sound entries. -/
theorem everyStepKeepsTheTableSound : Obligations.EveryStepKeepsTheTableSound :=
  fun _ _ h ht => tableSound_kept.step h ht

end Sys2Proof.Machine
end

-- ==== Every step completes ====
section
/-! O2: over a sound match table no step stops (R43, R45, R75). -/

namespace Sys2Proof.Machine

theorem execPorNReleased_next (l : Bool) (s : State) : ∃ t, execPorNReleased l s = .next t := by
  unfold execPorNReleased
  split <;> exact ⟨_, rfl⟩

/-- An arrival aside, a row answers a next state in every state. -/
theorem exec_next_of_not_arrival {c : Instr} (h : ∀ r, c ≠ .requestArrival r) (s : State) : ∃ t, exec c s = .next t := by
  rcases hk : commandBody c with _ | ⟨k, body⟩
  · rcases he : eventEffect c with _ | f
    · rcases hd : dueEffect c with _ | f
      · cases c <;> cases hk <;> cases he <;> cases hd
        · exact absurd rfl (h _)
        · exact ⟨_, rfl⟩
        · exact execPorNReleased_next _ s
        · exact ⟨_, rfl⟩
      · rw [exec_of_dueEffect hd]
        unfold State.dueEvent
        split <;> exact ⟨_, rfl⟩
    · rw [exec_of_eventEffect he]
      exact event_next s f
  · rw [exec_of_commandBody hk]
    exact event_next s _

/-- A request at the port is left presented, or arrives over the table as it was before what was due. -/
theorem execRequestArrival_next {s : State} (h : s.TableSound) (r : Request) : ∃ t, execRequestArrival r s = .next t := by
  unfold execRequestArrival State.present
  split
  · exact ⟨_, rfl⟩
  · split
    · exact arrive_next (h.of_table (settle_settleFrame s).table) r
    · exact ⟨_, rfl⟩

theorem exec_next {s : State} (h : s.TableSound) (c : Instr) : ∃ t, exec c s = .next t := by
  by_cases hc : ∃ r, c = .requestArrival r
  · obtain ⟨r, rfl⟩ := hc
    exact execRequestArrival_next h r
  · exact exec_next_of_not_arrival (fun r e => hc ⟨r, e⟩) s

/-- Settles O2: an empty queue idles, and every row of the queue's front answers a next state. -/
theorem everyStepOverASoundTableCompletes : Obligations.EveryStepOverASoundTableCompletes := by
  intro s h
  unfold step
  split
  · exact ⟨s, rfl⟩
  · next i rest _ => exact exec_next (h.of_table (t := { s with pending := rest }) rfl) i

end Sys2Proof.Machine
end

-- ==== Budgets stay bounded ====
section
/-! O10: every row keeps the remaining budgets at most 4095 and the extend counts at most 8 (R26, R52, R66). As in O6,
`Piece.InBudget` is the part of `State.BudgetsBounded` that looks at one piece. -/

namespace Sys2Proof.Machine

/-- A record's remaining budget and extend count are in their ranges (R66). -/
def Hold.InBudget (g : Hold) : Prop := g.remaining ≤ 4095 ∧ g.extended ≤ 8

/-- A disposition that asks for a hold asks for a budget in its range (R26, R52). -/
def Disposition.InBudget : Disposition → Prop
  | .hold _ _ b _ => b ≤ 4095
  | .pass | .overlay _ _ _ _ | .fault _ => True

/-- The disposition that a slot keeps, if it has one, is in budget (R7). -/
def Transaction.InBudget (x : Transaction) : Prop := ∀ d, x.disposition = some d → d.InBudget

/-- The budgets of one piece (R26, R52, R66). -/
def Piece.InBudget (s : State) : Piece → Prop
  | .holds => ∀ g ∈ s.holds, g.InBudget
  | .slots => ∀ v x, s.slot v = some x → x.InBudget
  | .table => ∀ i : EntryIndex, s.table[i].config.budget ≤ 4095
  | _ => True

/-- The pieces that hold budgets. -/
def budgetPieces : List Piece := [.holds, .slots, .table]

theorem transaction_inBudget_iff (x : Transaction) :
    x.InBudget ↔ ∀ e p b q, x.disposition = some (.hold e p b q) → b ≤ 4095 := by
  constructor
  · intro h e p b q hd
    exact h _ hd
  · intro h d hd
    cases d with
    | hold e p b q => exact h e p b q hd
    | _ => trivial

theorem budgetsBounded_iff (s : State) : s.BudgetsBounded ↔ ∀ p : Piece, p.InBudget s := by
  constructor
  · rintro ⟨remaining, extended, kept, configured⟩ p
    cases p
    case holds => exact fun g hg => ⟨remaining g hg, extended g hg⟩
    case slots => exact fun v x hx => (transaction_inBudget_iff x).2 fun e p b q => kept v x e p b q hx
    case table => exact configured
    all_goals trivial
  · intro h
    exact ⟨fun g hg => (h .holds g hg).1, fun g hg => (h .holds g hg).2,
      fun v x e p b q hx => (transaction_inBudget_iff x).1 (h .slots v x hx) e p b q, h .table⟩

theorem slot_of_transit {s t : State} (h : t.transit = s.transit) (v : Tag) : t.slot v = s.slot v := by
  simp [State.slot, h]

theorem Piece.InBudget.of_same {s t : State} {p : Piece} (h : p.Same s t) (k : p.InBudget s) : p.InBudget t := by
  cases p
  case slots =>
    intro v x hx
    exact k v x ((slot_of_transit (Prod.mk.inj h).1 v).symm.trans hx)
  all_goals simp_all [Piece.Same, Piece.InBudget]

namespace State.BudgetsBounded

variable {s t : State}

theorem piece (h : s.BudgetsBounded) (p : Piece) : p.InBudget s := (budgetsBounded_iff s).1 h p

theorem slot (h : s.BudgetsBounded) {v : Tag} {x : Transaction} (hx : s.slot v = some x) : x.InBudget := h.piece .slots v x hx

theorem hold (h : s.BudgetsBounded) {g : Hold} (hg : g ∈ s.holds) : g.InBudget := h.piece .holds g hg

/-- An operation that keeps the budgets of the pieces it touches keeps all budgets. -/
theorem of_keeps {ps : List Piece} (h : s.BudgetsBounded) (k : KeepsAllBut ps s t) (inBudget : ∀ p ∈ ps, p.InBudget t) :
    t.BudgetsBounded := by
  refine (budgetsBounded_iff t).2 fun p => ?_
  rcases k p with hp | hp
  · exact inBudget p hp
  · exact (h.piece p).of_same hp

/-- An operation that touches one piece with budgets at most. -/
theorem of_one {ps : List Piece} (h : s.BudgetsBounded) (k : KeepsAllBut ps s t) (q : Piece)
    (apart : ∀ p ∈ budgetPieces, p ≠ q → p ∉ ps) (hq : q.InBudget t) : t.BudgetsBounded := by
  refine (budgetsBounded_iff t).2 fun p => ?_
  by_cases hp : p = q
  · exact hp ▸ hq
  · by_cases hb : p ∈ budgetPieces
    · exact (h.piece p).of_same (k.same (apart p hb hp))
    · cases p <;> trivial

end State.BudgetsBounded

theorem budgets_dependsOn : DependsOn budgetPieces State.BudgetsBounded := by
  intro s t same h
  refine (budgetsBounded_iff t).2 fun p => ?_
  by_cases hp : p ∈ budgetPieces
  · exact (h.piece p).of_same (same p hp)
  · cases p <;> trivial

/-- An operation that touches no piece with budgets. -/
theorem State.BudgetsBounded.of_apart {ps : List Piece} {s t : State} (h : s.BudgetsBounded) (k : KeepsAllBut ps s t)
    (apart : ∀ p ∈ budgetPieces, p ∉ ps) : t.BudgetsBounded := budgets_dependsOn.of_keeps k apart h

theorem LogFrame.budgets {s t : State} (k : LogFrame s t) (h : s.BudgetsBounded) : t.BudgetsBounded :=
  h.of_apart k.keeps (by decide)

/-! ### Slots -/

/-- One slot takes new contents. -/
theorem setSlot_budgets {s t : State} {u : Tag} {o : Option Transaction} {ps : List Piece} (h : s.BudgetsBounded)
    (k : KeepsAllBut ps s t) (apart : ∀ p ∈ budgetPieces, p ≠ .slots → p ∉ ps) (transit : t.transit = s.transit.set u o)
    (ho : ∀ x, o = some x → x.InBudget) : t.BudgetsBounded := by
  refine h.of_one k .slots apart fun v x hx => ?_
  by_cases hv : v = u
  · subst hv
    exact ho x ((slot_set_self transit).symm.trans hx)
  · exact h.slot ((slot_set_of_ne transit hv).symm.trans hx)

theorem putSlot_budgets {s : State} (h : s.BudgetsBounded) (u : Tag) {x : Transaction} (hx : x.InBudget) :
    (s.putSlot u x).BudgetsBounded :=
  setSlot_budgets h (putSlot_keeps u x s) (by decide) rfl (by rintro y ⟨⟩; exact hx)

theorem answerSlot_budgets {s : State} (h : s.BudgetsBounded) (u : Tag) {x : Transaction} (hx : x.InBudget)
    (r : BusResponse) : (s.answerSlot u x r).BudgetsBounded :=
  setSlot_budgets h (answerSlot_keeps u x r s) (by decide) rfl (by rintro y ⟨⟩; exact hx)

theorem freeSlot_budgets {s : State} (h : s.BudgetsBounded) (u : Tag) : (s.freeSlot u).BudgetsBounded :=
  setSlot_budgets h (freeSlot_keeps u s) (by decide) rfl nofun

theorem takeResponse_budgets {s : State} (h : s.BudgetsBounded) : s.takeResponse.BudgetsBounded := by
  have keeps := takeResponse_keeps s
  unfold State.takeResponse at keeps ⊢
  split at keeps
  · exact h
  · exact setSlot_budgets h keeps (by decide) rfl nofun

theorem granted_budgets {s t : State} (h : s.BudgetsBounded) (hg : Granted s t) : t.BudgetsBounded := by
  cases hg with
  | none _ => exact h
  | path _ _ hx _ =>
    have kept := h.slot hx
    exact setSlot_budgets h (grantPath_keeps _ _ s) (by decide) rfl (by rintro y ⟨⟩; exact kept)
  | injected _ _ _ => exact h.of_apart (grantInjected_keeps _ s) (by decide)

/-! ### Creating and ending holds -/

/-- A hold that is asked for begins in budget. -/
theorem askHold_budgets {s : State} (h : s.BudgetsBounded) {g : Hold} (hg : g.InBudget) : (s.askHold g).BudgetsBounded := by
  refine h.of_keeps (askHold_keeps g s) ?_
  simp only [List.mem_singleton, forall_eq]
  intro k hk
  rcases askHold_cases s g with ⟨-, -, holds⟩ | ⟨-, holds⟩ <;> rw [holds] at hk
  · rcases List.mem_append.1 hk with hk | hk
    · exact h.hold hk
    · obtain rfl := List.mem_singleton.1 hk
      exact hg
  · exact h.hold hk

theorem beforeHold_inBudget {x : Transaction} (e : EntryIndex) {b : Nat} (hb : b ≤ 4095) (p : Policy) :
    (beforeHold x e b p).InBudget := ⟨hb, Nat.zero_le 8⟩

theorem afterHold_inBudget {x : Transaction} (r : BusResponse) (e : EntryIndex) {b : Nat} (hb : b ≤ 4095) (p : Policy) :
    (afterHold x r e b p).InBudget := ⟨hb, Nat.zero_le 8⟩

theorem carryOut_budgets {s : State} (h : s.BudgetsBounded) {x : Transaction} (hx : x.InBudget) (mayHold : Bool) :
    (s.carryOut mayHold x).BudgetsBounded := by
  unfold State.carryOut
  split
  · next e b p hd =>
    split
    · exact putSlot_budgets (askHold_budgets h (beforeHold_inBudget e (hx _ hd) p)) _ hx
    · exact putSlot_budgets h _ hx
  · exact putSlot_budgets h _ hx

theorem enter_budgets {s : State} (h : s.BudgetsBounded) {x : Transaction} (hx : x.InBudget) : (s.enter x).BudgetsBounded := by
  unfold State.enter
  split
  · exact putSlot_budgets h _ hx
  · exact carryOut_budgets h hx true

theorem holdResponse_budgets {s : State} (h : s.BudgetsBounded) (u : Tag) {x : Transaction} (hx : x.InBudget)
    (r : BusResponse) {g : Hold} (hg : g.InBudget) : (s.holdResponse u x r g).BudgetsBounded := by
  unfold State.holdResponse
  split
  · exact putSlot_budgets (askHold_budgets h hg) _ hx
  all_goals exact answerSlot_budgets (askHold_budgets h hg) _ hx r

theorem unparkOne_budgets {s : State} (h : s.BudgetsBounded) (mayHold : Bool) (t : Tag) :
    (s.unparkOne mayHold t).BudgetsBounded := by
  unfold State.unparkOne
  split
  · exact h
  · next x hx =>
    split
    · exact (appendAll_logFrame _ _).budgets (carryOut_budgets h (h.slot hx) mayHold)
    · exact h

theorem unparkPass_budgets {s : State} (h : s.BudgetsBounded) (mayHold : Bool) : (s.unparkPass mayHold).BudgetsBounded := by
  unfold State.unparkPass
  generalize s.parkedTags = ts
  induction ts generalizing s with
  | nil => exact h
  | cons t ts ih => exact ih (unparkOne_budgets h mayHold t)

theorem deliver_budgets {s : State} (h : s.BudgetsBounded) (proceeds : Bool) (g : Hold) :
    (s.deliver proceeds g).BudgetsBounded := by
  unfold State.deliver
  split
  · exact h
  · next x hx =>
    have kept := h.slot hx
    split
    · split
      · exact putSlot_budgets h _ kept
      · exact answerSlot_budgets h _ kept _
    · exact answerSlot_budgets h _ kept _

theorem removeHold_keeps (id : Byte) (s : State) : KeepsAllBut [.holds] s (s.removeHold id) := by
  intro p; cases p <;> simp [Piece.Same]

theorem removeHold_budgets {s : State} (h : s.BudgetsBounded) (id : Byte) : (s.removeHold id).BudgetsBounded :=
  h.of_one (removeHold_keeps id s) .holds (by decide) fun _ hg => h.hold (List.mem_filter.1 hg).1

theorem endHold_budgets {s : State} (h : s.BudgetsBounded) (mayHold proceeds expiry : Bool) (o : TraceOutcome) (g : Hold) :
    (s.endHold mayHold proceeds expiry o g).BudgetsBounded := by
  have ended := (postIf_logFrame expiry .expiry g.id _).budgets
    ((append_logFrame _ (g.endNote (some g.id) o)).budgets (deliver_budgets (removeHold_budgets h g.id) proceeds g))
  unfold State.endHold
  split
  · exact unparkPass_budgets ended mayHold
  · exact ended

theorem expireNext_budgets {s : State} (h : s.BudgetsBounded) : s.expireNext.BudgetsBounded := by
  unfold State.expireNext State.expire
  split
  · exact h
  · split <;> exact endHold_budgets h _ _ _ _ _

theorem endHolds_budgets {s : State} (h : s.BudgetsBounded) (gs : List Hold) :
    (gs.foldl (State.endHold false true false .cleared) s).BudgetsBounded := by
  induction gs generalizing s with
  | nil => exact h
  | cons g gs ih => exact ih (endHold_budgets h _ _ _ _ g)

theorem clearHolds_budgets {s : State} (h : s.BudgetsBounded) : s.clearHolds.BudgetsBounded := by
  obtain ⟨remaining, extended, kept, configured⟩ := endHolds_budgets h s.holds
  exact ⟨remaining, extended, kept, configured⟩

theorem stepBudgets_budgets {s : State} (h : s.BudgetsBounded) : s.stepBudgets.BudgetsBounded := by
  refine h.of_one (stepBudgets_keeps s) .holds (by decide) fun g hg => ?_
  simp only [State.stepBudgets] at hg
  split at hg
  · obtain ⟨k, hk, rfl⟩ := List.mem_map.1 hg
    exact ⟨(Nat.sub_le _ 1).trans (h.hold hk).1, (h.hold hk).2⟩
  · exact h.hold hg

/-- A requester reset empties the hold queue, and the slots that it leaves keep their dispositions (R23, R71). -/
theorem requesterReset_budgets {s : State} (h : s.BudgetsBounded) : s.requesterReset.BudgetsBounded := by
  refine h.of_keeps (requesterReset_keeps s) ?_
  simp only [List.mem_cons, List.not_mem_nil, or_false, forall_eq_or_imp, forall_eq]
  refine ⟨fun v y hy => ?_, fun g hg => (List.not_mem_nil hg).elim, trivial⟩
  rw [requesterReset_slot, resetSlot_eq_some_iff] at hy
  obtain ⟨x, hx, -, rfl⟩ := hy
  have kept := h.slot hx
  exact kept

theorem assertRqrstIn_budgets {s : State} (h : s.BudgetsBounded) : s.assertRqrstIn.BudgetsBounded := by
  unfold State.assertRqrstIn
  split
  · exact h
  · exact (requesterReset_budgets h).of_apart (putLine_keeps true _) (by decide)

theorem startPulse_budgets {s : State} (h : s.BudgetsBounded) : s.startPulse.BudgetsBounded := by
  unfold State.startPulse
  split
  · exact h.of_apart (putPulse_keeps _ s) (by decide)
  · exact (requesterReset_budgets h).of_apart (putPulse_keeps _ _) (by decide)

/-! ### Evaluations -/

theorem evaluated_budgets {s : State} (h : s.BudgetsBounded) (late : Bool) (r : Request) (data : List Byte) :
    (s.evaluated late r data).BudgetsBounded :=
  h.of_one (evaluated_keeps late r data s) .table (by decide) fun i => by
    rw [evaluated_config]
    exact h.configured i

theorem lateState_budgets {s : State} (h : s.BudgetsBounded) (x : Transaction) (ret : MemReturn) :
    (s.lateState x ret).BudgetsBounded := by
  unfold State.lateState
  split
  · exact evaluated_budgets h _ _ _
  · exact h

/-- The disposition that an arrival is given copies an entry's budget (R33). -/
theorem early_inBudget {s : State} (h : s.BudgetsBounded) (r : Request) : (s.early r).InBudget := by
  unfold State.early earlyDisposition
  split
  · trivial
  · next i _ =>
    unfold EntryConfig.disposition
    split
    · trivial
    · exact h.configured i
    · trivial
    · trivial

theorem entrant_inBudget {s : State} (h : s.BudgetsBounded) (r : Request) : (s.entrant r).InBudget := by
  rintro d ⟨⟩
  exact early_inBudget h r

theorem arrived_budgets {s t : State} {r : Request} (h : s.BudgetsBounded) (ha : Arrived s r t) : t.BudgetsBounded := by
  have accepted : s.accepted.BudgetsBounded := h.of_apart (accepted_keeps s) (by decide)
  have judged : (s.judged r).BudgetsBounded := evaluated_budgets accepted _ _ _
  have entrant := entrant_inBudget h r
  have wrong : (s.newTransaction r none .waiting).InBudget := by rintro d ⟨⟩
  cases ha with
  | wrong _ => exact (appendAll_logFrame _ _).budgets (answerSlot_budgets accepted _ wrong _)
  | answered ns _ =>
    exact (appendAll_logFrame ns _).budgets
      (answerSlot_budgets (judged.of_apart (putStore_keeps _ _) (by decide)) _ entrant _)
  | entered ns => exact (appendAll_logFrame ns _).budgets (enter_budgets judged entrant)

/-- A hold at return is the early disposition's, or a late entry's with its values now (R18, R41). -/
theorem lateResult_inBudget {s : State} (h : s.BudgetsBounded) {x : Transaction} (hx : x.InBudget) {ret : MemReturn}
    {e : EntryIndex} {b : Nat} {p : Policy} (hl : s.lateResult x ret = .hold e b p) : b ≤ 4095 := by
  unfold State.lateResult at hl
  dsimp only at hl
  split at hl
  · cases hl
  · split at hl
    · next he =>
      cases hl
      unfold earlyAfterHold at he
      split at he
      · next hd => cases he; exact hx _ hd
      · cases he
    · split at hl
      · cases hl
      · split at hl
        · cases hl; exact h.configured _
        · cases hl

theorem returnToSlot_budgets {s : State} (h : s.BudgetsBounded) (u : Tag) {x : Transaction} (hx : x.InBudget)
    (ret : MemReturn) : (s.returnToSlot u x ret).BudgetsBounded := by
  have late := lateState_budgets h x ret
  rcases hl : s.lateResult x ret with _ | ⟨e, b, p⟩ | _
  · obtain ⟨ns, ht⟩ := returnToSlot_of_fault hl u
    exact ht ▸ (appendAll_logFrame ns _).budgets (answerSlot_budgets late u hx _)
  · obtain ⟨ns, ht⟩ := returnToSlot_of_hold hl u
    have asked := afterHold_inBudget (x := x) (returnedResponse x ret) e (lateResult_inBudget h hx hl) p
    exact ht ▸ (appendAll_logFrame ns _).budgets (holdResponse_budgets late u hx _ asked)
  · obtain ⟨ns, ht⟩ := returnToSlot_of_answer hl u
    exact ht ▸ (appendAll_logFrame ns _).budgets (answerSlot_budgets late u hx _)

theorem takeReturn_budgets {s : State} (h : s.BudgetsBounded) (ret : MemReturn) : (s.takeReturn ret).BudgetsBounded := by
  have drop : ∀ rest, (s.putIssue rest).BudgetsBounded := fun rest => h.of_apart (putIssue_keeps rest s) (by decide)
  generalize ht : s.takeReturn ret = t
  have row := returned s ret
  rw [ht] at row
  cases row with
  | none _ => exact h
  | injected _ => exact (drop _).of_apart (updateAccess_keeps _ _ _) (by decide)
  | orphan _ _ _ => exact freeSlot_budgets (drop _) _
  | slot hi hx hs _ =>
    rw [← ht, takeReturn_of_issued hi hx hs]
    exact returnToSlot_budgets (drop _) _ (h.slot hx) _
  | stray _ _ => exact drop _

/-! ### The commands -/

theorem withHold_budgets {s : State} {f : Hold → State → Reply} (h : s.BudgetsBounded) (id : Byte)
    (hf : ∀ g ∈ s.holds, (f g s).state.BudgetsBounded) : (withHold id f s).state.BudgetsBounded := by
  unfold withHold
  split
  · exact h
  · next g hg => exact hf g (mem_of_findHold hg)

theorem updateHold_budgets {s : State} (h : s.BudgetsBounded) {g : Hold} (hg : g.InBudget) :
    (s.updateHold g).BudgetsBounded := by
  refine h.of_one (updateHold_keeps g s) .holds (by decide) fun k hk => ?_
  obtain ⟨m, hm, rfl⟩ := List.mem_map.1 hk
  split
  · exact hg
  · exact h.hold hm

theorem amendSlot_budgets {s : State} (h : s.BudgetsBounded) (u : Tag) (d : List Byte) : (s.amendSlot u d).BudgetsBounded := by
  unfold State.amendSlot
  split
  · exact h
  · next x hx =>
    have kept := h.slot hx
    exact putSlot_budgets h u kept

theorem amendHold_budgets {s : State} (h : s.BudgetsBounded) (d : List Byte) {g : Hold} (hg : g.InBudget) :
    (s.amendHold d g).BudgetsBounded := by
  have updated : (s.updateHold (g.amendWith d)).BudgetsBounded := updateHold_budgets h hg
  unfold State.amendHold
  split
  · exact amendSlot_budgets updated _ _
  · exact updated

theorem amendBody_budgets {s : State} (h : s.BudgetsBounded) (id n : Byte) (d : List Byte) :
    (amendBody id n d s).state.BudgetsBounded := by
  unfold amendBody
  split
  · refine withHold_budgets h id fun g hg => ?_
    unfold amendRecord
    split
    · exact h
    · split
      · exact h
      · exact amendHold_budgets h d (h.hold hg)
  · exact h

/-- EXTEND cuts the budget to 4095, and acts on a record that has been extended less than 8 times alone (R66). -/
theorem extendBody_budgets {s : State} (h : s.BudgetsBounded) (id : Byte) (u : Half) :
    (extendBody id u s).state.BudgetsBounded := by
  unfold extendBody
  split
  · refine withHold_budgets h id fun g hg => ?_
    unfold extendRecord
    split
    · exact h
    · next below =>
      have extended : g.extended + 1 ≤ 8 := Nat.lt_of_le_of_ne (h.hold hg).2 below
      exact updateHold_budgets h ⟨Nat.min_le_right _ _, extended⟩
  · exact h

theorem withEntry_budgets {s : State} {f : EntryIndex → State → Reply} (h : s.BudgetsBounded) (index : Byte)
    (hf : ∀ i, (f i s).state.BudgetsBounded) : (withEntry index f s).state.BudgetsBounded := by
  unfold withEntry
  split
  · exact h
  · exact hf _

theorem setEntry_budgets {s : State} (h : s.BudgetsBounded) (i : EntryIndex) {e : MatchEntry} (he : e.config.budget ≤ 4095) :
    (s.setEntry i e).BudgetsBounded := by
  refine h.of_one (putTable_keeps _ s) .table (by decide) fun j => ?_
  have entry := setEntry_table i j e s
  change (s.setEntry i e).table[j].config.budget ≤ 4095
  rw [entry]
  split
  · exact he
  · exact h.configured j

/-- The stored budget is 0, or that of a legal HOLD entry (R43, R44). -/
theorem imageEntry_budget {im : List Byte} (h : (imageFields im).legal = true) : (imageEntry im).config.budget ≤ 4095 := by
  change (if (imageFields im).action = .hold then (imageFields im).budget else 0) ≤ 4095
  split
  · next hold =>
    simp only [EntryConfig.legal, hold, Bool.and_eq_true, ne_eq, not_true_eq_false, decide_false, Bool.false_or,
      decide_eq_true_eq] at h
    obtain ⟨⟨⟨-, -, budget⟩, -⟩, -⟩ := h
    exact budget
  · exact Nat.zero_le _

theorem writeEntryAt_budgets {s : State} (h : s.BudgetsBounded) (im : List Byte) (i : EntryIndex) :
    (writeEntryAt im i s).state.BudgetsBounded := by
  unfold writeEntryAt
  split
  · exact h
  · split
    · next hl => exact setEntry_budgets h i (imageEntry_budget (Bool.and_eq_true_iff.1 hl).2)
    · exact h

theorem enableEntryAt_budgets {s : State} (h : s.BudgetsBounded) (i : EntryIndex) :
    (enableEntryAt i s).state.BudgetsBounded := by
  unfold enableEntryAt
  split
  · exact h
  · split
    · exact setEntry_budgets h i (h.configured i)
    · exact h

theorem armEntryAt_budgets {s : State} (h : s.BudgetsBounded) (a : Bool) (i : EntryIndex) :
    (armEntryAt a i s).state.BudgetsBounded :=
  h.of_one (putTable_keeps _ s) .table (by decide) fun j => by
    have config := (setArmed_armFrame i a s.table).config j
    exact config ▸ h.configured j

theorem clearTable_budgets {s : State} (h : s.BudgetsBounded) : s.clearTable.BudgetsBounded :=
  h.of_one (clearTable_keeps s) .table (by decide) fun i => by
    rw [clearTable_get]
    decide

theorem clearingEffect_budgets {s : State} {f : State → State} (h : s.BudgetsBounded) (hf : (f s).BudgetsBounded)
    (c : ClearStep) : (clearingEffect c f s).BudgetsBounded := by
  unfold clearingEffect
  split
  · exact hf
  · exact h

/-- A state in reset has the power-on slots, hold queue and match table. -/
theorem inReset_budgets (por l : Bool) (s : State) : (s.inReset por l).BudgetsBounded := by
  obtain ⟨remaining, extended, kept, configured⟩ := reset_budgetsBounded
  exact ⟨remaining, extended, kept, configured⟩

theorem budgets_kept : Kept budgetPieces State.BudgetsBounded where
  depends := budgets_dependsOn
  queue := by decide
  inReset := inReset_budgets
  present r s h := h.of_apart (leavePresented_keeps r s) (by decide)
  arrive r s t h _ ha := arrived_budgets h ha
  due c f hf hm s h := by
    cases c <;> cases hf
    case budgetStep => exact stepBudgets_budgets h
    case holdExpiry => exact expireNext_budgets h
    all_goals exact absurd hm (by decide)
  event c f hf hm s h := by
    cases c <;> cases hf
    case responseTaken => exact takeResponse_budgets h
    case memoryPortGrant => exact granted_budgets h (granted s)
    case memoryReturn r => exact takeReturn_budgets h r
    case rqrstInAsserted => exact assertRqrstIn_budgets h
    case clearUnitHolds =>
      exact clearingEffect_budgets h ((clearHolds_budgets h).of_apart (setClearing_keeps _ _) (by decide)) _
    case clearUnitMatchTable =>
      exact clearingEffect_budgets h ((clearTable_budgets h).of_apart (setClearing_keeps _ _) (by decide)) _
    all_goals exact absurd hm Bool.false_ne_true
  command c k body hk hm s h := by
    cases c <;> cases hk
    case writeEntry i im => exact withEntry_budgets h i fun j => writeEntryAt_budgets h im j
    case enableEntry i => exact withEntry_budgets h i fun j => enableEntryAt_budgets h j
    case disableEntry i => exact withEntry_budgets h i fun j => setEntry_budgets h j (h.configured j)
    case armEntry i => exact withEntry_budgets h i fun j => armEntryAt_budgets h true j
    case disarmEntry i => exact withEntry_budgets h i fun j => armEntryAt_budgets h false j
    case clearCount i => exact withEntry_budgets h i fun j => setEntry_budgets h j (h.configured j)
    case release id => exact withHold_budgets h id fun g _ => endHold_budgets h _ _ _ _ g
    case amend id n d => exact amendBody_budgets h id n d
    case fail id => exact withHold_budgets h id fun g _ => endHold_budgets h _ _ _ _ g
    case extend id u => exact extendBody_budgets h id u
    case resetRequester => exact startPulse_budgets h
    all_goals exact absurd hm Bool.false_ne_true

/-- Settles O10: every row keeps the budgets of the pieces it touches; those that begin a hold copy a bounded budget, and
EXTEND cuts and counts. -/
theorem everyStepKeepsBudgetsBounded : Obligations.EveryStepKeepsBudgetsBounded :=
  fun _ _ h ht => budgets_kept.step h ht

end Sys2Proof.Machine
end

-- ==== The tests of a match entry ====
section
/-! O26 and O27: the window, kind and privilege tests, and the data condition lane by lane (R27 to R29). -/

namespace Sys2Proof.Machine

/-! ### Window, kind and privilege -/

theorem inWindow_iff (c : EntryConfig) (r : Request) : c.inWindow r = true ↔
    r.addr.toNat ≤ c.limit.toNat ∧ c.base.toNat ≤ r.addr.toNat + r.size.bytes - 1 := by
  simp [EntryConfig.inWindow]

/-- The window test looks for a byte that the access touches and the window holds (R27). -/
theorem inWindow_iff_exists_byte {c : EntryConfig} (order : c.base.toNat ≤ c.limit.toNat) (r : Request) :
    c.inWindow r = true ↔
      ∃ a, r.addr.toNat ≤ a ∧ a ≤ r.addr.toNat + r.size.bytes - 1 ∧ c.base.toNat ≤ a ∧ a ≤ c.limit.toNat := by
  have pos := size_pos r.size
  rw [inWindow_iff]
  constructor
  · rintro ⟨low, high⟩
    exact ⟨max r.addr.toNat c.base.toNat, by omega, by omega, by omega, by omega⟩
  · rintro ⟨a, h1, h2, h3, h4⟩
    exact ⟨h1.trans h4, h3.trans h2⟩

/-- The manual's four examples of a window of one byte (R27). -/
theorem inWindow_examples {c : EntryConfig} {r : Request} (hb : c.base = 0x20000102) (hl : c.limit = 0x20000102) :
    (r.addr = 0x20000102 → r.size = .one ∨ r.size = .two → c.inWindow r = true) ∧
      (r.addr = 0x20000100 → r.size = .four ∨ r.size = .line → c.inWindow r = true) ∧
      (r.addr = 0x20000100 → r.size = .two → c.inWindow r = false) := by
  refine ⟨fun ha hz => ?_, fun ha hz => ?_, fun ha hz => ?_⟩
  · rw [inWindow_iff, hb, hl, ha]
    rcases hz with hz | hz <;> rw [hz] <;> decide
  · rw [inWindow_iff, hb, hl, ha]
    rcases hz with hz | hz <;> rw [hz] <;> decide
  · rw [← Bool.not_eq_true, inWindow_iff, hb, hl, ha, hz]
    decide

theorem kindSet_has_iff (ks : KindSet) (k : Kind) : ks.has k = true ↔
    (k = .read ∧ ks.read = true) ∨ (k = .write ∧ ks.write = true) ∨ (k = .fetch ∧ ks.fetch = true) := by
  cases k <;> simp [KindSet.has]

theorem privFilter_passes_iff (f : PrivFilter) (p : Privilege) :
    f.passes p = true ↔ f = .any ∨ (f = .priv ∧ p = .priv) ∨ (f = .user ∧ p = .user) := by
  cases f <;> simp [PrivFilter.passes]

/-- What a hit asks of an entry's kinds and filter (R28, R32). -/
theorem kind_and_filter_of_hitsOn {e : MatchEntry} {late : Bool} {r : Request} {data : List Byte}
    (h : e.hitsOn late r data = true) : e.config.kinds.has r.kind = true ∧ e.config.filter.passes r.priv = true := by
  simp only [MatchEntry.hitsOn, EntryConfig.takesPart, Bool.and_eq_true] at h
  obtain ⟨⟨⟨⟨-, kind, -⟩, -⟩, filter⟩, -⟩ := h
  exact ⟨kind, filter⟩

theorem hitsOn_of_no_kind {e : MatchEntry} {r : Request} (h : e.config.kinds.has r.kind = false) (late : Bool)
    (data : List Byte) : e.hitsOn late r data = false := by
  rw [← Bool.not_eq_true]
  intro hit
  rw [(kind_and_filter_of_hitsOn hit).1] at h
  cases h

theorem hitsOn_of_filtered {e : MatchEntry} {r : Request} (h : e.config.filter.passes r.priv = false) (late : Bool)
    (data : List Byte) : e.hitsOn late r data = false := by
  rw [← Bool.not_eq_true]
  intro hit
  rw [(kind_and_filter_of_hitsOn hit).2] at h
  cases h

/-- Settles O26: the window test is the overlap of two ranges, and an entry that hits has passed the other two tests. -/
theorem windowKindAndPrivilegeTests : Obligations.WindowKindAndPrivilegeTests := by
  refine ⟨⟨fun c r order => ⟨inWindow_iff_exists_byte order r, fun _ => rfl⟩, rfl, rfl, rfl, rfl,
    fun c r hb hl => inWindow_examples hb hl⟩, kindSet_has_iff, privFilter_passes_iff,
    fun e late r data => ⟨?_, fun no hk => ?_, fun no hk => ?_⟩⟩
  · rintro (no | no)
    · exact hitsOn_of_no_kind no late data
    · exact hitsOn_of_filtered no late data
  · exact hitsOn_of_no_kind (by rw [hk]; exact no) late data
  · exact hitsOn_of_no_kind (by rw [hk]; exact no) late data

/-! ### The data condition -/

/-- Bit `j` of a data string as a number is bit `j % 8` of its byte `j / 8`. -/
theorem testBit_leNat (bs : List Byte) (j : Nat) : (leNat bs).testBit j = (bs.getD (j / 8) 0).getLsbD (j % 8) := by
  induction bs generalizing j with
  | nil => simp [leNat]
  | cons b bs ih =>
    have byte : b.toNat < 2 ^ 8 := b.isLt
    rw [leNat, show b.toNat + 256 * leNat bs = 2 ^ 8 * leNat bs + b.toNat by omega, Nat.testBit_two_pow_mul_add _ byte]
    split
    · next low => rw [Nat.div_eq_of_lt low, Nat.mod_eq_of_lt low, List.getD_cons_zero, BitVec.testBit_toNat]
    · next high =>
      have shift : j / 8 = (j - 8) / 8 + 1 := by omega
      rw [ih, shift, List.getD_cons_succ, show (j - 8) % 8 = j % 8 by omega]

/-- The bits of the lanes that an access touches (R29). -/
theorem getLsbD_laneMask (a : Word) (w : Nat) {n : Nat} (hn : n < 32) :
    (laneMask a w).getLsbD n = true ↔ laneShift a ≤ n ∧ n < laneShift a + 8 * w := by
  simp only [laneMask, BitVec.getLsbD_ofNat, hn, decide_true, Bool.true_and, Nat.testBit_mul_two_pow,
    Nat.testBit_two_pow_sub_one, Bool.and_eq_true, decide_eq_true_eq]
  omega

/-- A byte of an access stands in the lane of its address (R29). -/
theorem getLsbD_laneWord (a : Word) (data : List Byte) {n : Nat} (hn : n < 32) (low : laneShift a ≤ n) :
    (laneWord a data).getLsbD n = (data.getD (n / 8 - a.toNat % 4) 0).getLsbD (n % 8) := by
  simp only [laneWord, BitVec.getLsbD_ofNat, hn, low, decide_true, Bool.true_and, Nat.testBit_mul_two_pow, testBit_leNat]
  unfold laneShift at *
  rw [show (n - 8 * (a.toNat % 4)) / 8 = n / 8 - a.toNat % 4 by omega,
    show (n - 8 * (a.toNat % 4)) % 8 = n % 8 by omega]

theorem and_not_eq_zero_iff (m l : Word) :
    m &&& ~~~l = 0 ↔ ∀ n, n < 32 → m.getLsbD n = true → l.getLsbD n = true := by
  constructor
  · intro h n hn hm
    have bit := congrArg (fun w : Word => w.getLsbD n) h
    simpa [hn, hm] using bit
  · intro h
    refine BitVec.eq_of_getLsbD_eq fun n hn => ?_
    cases hm : m.getLsbD n with
    | false => simp [hm]
    | true => simp [hm, hn, h n hn hm]

theorem and_eq_and_iff (m x v : Word) :
    m &&& x = m &&& v ↔ ∀ n, n < 32 → m.getLsbD n = true → x.getLsbD n = v.getLsbD n := by
  constructor
  · intro h n hn hm
    have bit := congrArg (fun w : Word => w.getLsbD n) h
    simpa [hm] using bit
  · intro h
    refine BitVec.eq_of_getLsbD_eq fun n hn => ?_
    cases hm : m.getLsbD n with
    | false => simp [hm]
    | true => simp [hm, h n hn hm]

/-- The data condition, bit by bit of its mask (R29). -/
theorem dataCond_holds_iff (c : DataCond) (r : Request) (data : List Byte) : c.holds r data = true ↔ r.size ≠ .line ∧
    ∀ n, n < 32 → c.mask.getLsbD n = true →
      (laneShift r.addr ≤ n ∧ n < laneShift r.addr + 8 * r.size.bytes) ∧
        (data.getD (n / 8 - r.addr.toNat % 4) 0).getLsbD (n % 8) = c.value.getLsbD n := by
  simp only [DataCond.holds, Bool.and_eq_true, decide_eq_true_eq, and_not_eq_zero_iff, and_eq_and_iff]
  rw [and_assoc]
  refine and_congr_right fun _ => ?_
  constructor
  · rintro ⟨inLane, equal⟩ n hn hm
    have lane := (getLsbD_laneMask _ _ hn).1 (inLane n hn hm)
    exact ⟨lane, getLsbD_laneWord _ data hn lane.1 ▸ equal n hn hm⟩
  · intro h
    refine ⟨fun n hn hm => (getLsbD_laneMask _ _ hn).2 (h n hn hm).1, fun n hn hm => ?_⟩
    obtain ⟨lane, equal⟩ := h n hn hm
    rw [getLsbD_laneWord _ data hn lane.1, equal]

/-- An aligned access that is not a LINE lies within its aligned word. -/
theorem lanes_of_aligned {a w : Nat} {z : Size} (hw : w = z.bytes) (hz : z ≠ .line) (aligned : a % w = 0) : a % 4 + w ≤ 4 := by
  cases z <;> simp only [Size.bytes] at hw <;> subst hw
  · omega
  · omega
  · omega
  · exact absurd rfl hz

/-- A lane of an aligned access is touched by the one byte whose address it is the lane of. -/
theorem lane_iff_exists_byte {a w n : Nat} (room : a % 4 + w ≤ 4) (p : Nat → Prop) :
    ((8 * (a % 4) ≤ n ∧ n < 8 * (a % 4) + 8 * w) ∧ p (n / 8 - a % 4)) ↔ ∃ k, k < w ∧ (a + k) % 4 = n / 8 ∧ p k := by
  constructor
  · rintro ⟨lane, hp⟩
    exact ⟨n / 8 - a % 4, by omega, by omega, hp⟩
  · rintro ⟨k, hk, lane, hp⟩
    have byte : n / 8 - a % 4 = k := by omega
    exact ⟨by omega, byte.symm ▸ hp⟩

/-- Settles O27: the lanes of an aligned access are those of its bytes' addresses. -/
theorem dataConditionTestsTouchedLanes : Obligations.DataConditionTestsTouchedLanes := by
  intro c r data aligned _
  refine ⟨?_, fun hm => ?_⟩
  · rw [dataCond_holds_iff]
    refine and_congr_right fun hz => forall_congr' fun n => forall_congr' fun _ => forall_congr' fun _ => ?_
    exact lane_iff_exists_byte (lanes_of_aligned rfl hz aligned) fun k =>
      (data.getD k 0).getLsbD (n % 8) = c.value.getLsbD n
  · rw [dataCond_holds_iff, hm]
    simp

end Sys2Proof.Machine
end

-- ==== What an evaluation does ====
section
/-! O28 and O29: hits count and fire, the lowest firing entry that is not PASS decides, and the highest that acts on an armed
state sets it (R30, R32 to R34, R36 to R39). -/

namespace Sys2Proof.Machine

/-! ### Hits, the counter and the latch -/

/-- Below its threshold an entry fires exactly where one more hit reaches it (R32). -/
theorem full_iff {e : MatchEntry} (h : e.hits < e.config.threshold) : e.full = true ↔ e.hits + 1 = e.config.threshold := by
  simp only [MatchEntry.full, decide_eq_true_eq]
  omega

theorem evaluated_latch_iff (late : Bool) (r : Request) (data : List Byte) (s : State) :
    (s.evaluated late r data).eventLatch = true ↔ s.eventLatch = true ∨
      ∃ i ∈ firedEntries s.table late r data, s.table[i].config.signal = true := by
  simp [State.evaluated]

/-- With a data condition an entry is looked at early for WRITE and late for READ and FETCH (R30). -/
theorem takesPart_of_cond {c : EntryConfig} (h : c.cond.isSome = true) : c.takesPart false .read = false ∧
    c.takesPart false .fetch = false ∧ c.takesPart true .write = false := by
  have present : c.cond.isNone = false := by rw [← Option.not_isSome, h]; rfl
  simp [EntryConfig.takesPart, present]

/-- Settles O28: the counter's two ways on are the two sides of the threshold. -/
theorem hitsCountAndFire : Obligations.HitsCountAndFire := by
  intro s late r data sound
  refine ⟨fun i => ⟨?_, ?_, evaluated_config late r data s i, evaluated_enabled late r data s i⟩,
    evaluated_latch_iff late r data s, fun i => takesPart_of_cond⟩
  · rw [evaluated_hits]
    simp only [full_iff (sound.hits i)]
  · rw [mem_firedEntries, full_iff (sound.hits i)]

/-! ### The deciding entry -/

/-- No firing entry decides where all of them PASS (R33). -/
theorem decidingEntry_of_all_pass {tb : Vector MatchEntry 16} {fired : List EntryIndex}
    (h : ∀ i ∈ fired, tb[i].config.action = .pass) : decidingEntry tb fired = none := by
  unfold decidingEntry
  rw [List.find?_eq_none]
  intro i hi
  rw [h i hi]
  decide

/-- In an ascending list everything before an element is smaller, and everything after it is greater. -/
theorem split_of_ascending {l : List EntryIndex} (asc : l.Pairwise (· < ·)) {i : EntryIndex} (hi : i ∈ l) :
    ∃ before after, l = before ++ i :: after ∧ (∀ k ∈ before, k < i) ∧ ∀ k ∈ after, i < k := by
  obtain ⟨before, after, rfl⟩ := List.append_of_mem hi
  rw [List.pairwise_append, List.pairwise_cons] at asc
  obtain ⟨-, ⟨above, -⟩, below⟩ := asc
  exact ⟨before, after, rfl, fun k hk => below k hk i (List.mem_cons_self ..), above⟩

/-- The lowest-indexed firing entry that is not PASS decides (R33). -/
theorem decidingEntry_of_lowest {tb : Vector MatchEntry 16} {fired : List EntryIndex} (asc : fired.Pairwise (· < ·))
    {i : EntryIndex} (hi : i ∈ fired) (act : tb[i].config.action ≠ .pass)
    (lower : ∀ k ∈ fired, k < i → tb[k].config.action = .pass) : decidingEntry tb fired = some i := by
  obtain ⟨before, after, rfl, below, -⟩ := split_of_ascending asc hi
  unfold decidingEntry
  rw [List.find?_eq_some_iff_append]
  refine ⟨decide_eq_true act, before, after, rfl, fun k hk => ?_⟩
  rw [lower k (List.mem_append_left _ hk) (below k hk)]
  decide

theorem earlyDisposition_of_deciding {tb : Vector MatchEntry 16} {fired : List EntryIndex} {i : EntryIndex}
    (h : decidingEntry tb fired = some i) : earlyDisposition tb fired = tb[i].config.disposition i := by
  unfold earlyDisposition
  rw [h]

/-! ### Armed states -/

/-- A firing entry acts on an armed state, by its own ONESHOT or by an arm link to it (R37, R38). -/
def ActsOn (tb : Vector MatchEntry 16) (k j : EntryIndex) : Prop :=
  (k = j ∧ tb[k].config.oneshot = true) ∨ ∃ l, tb[k].config.link = some l ∧ l.target = j

/-- The two tables have the same configurations. -/
def SameConfigs (tb tc : Vector MatchEntry 16) : Prop := ∀ i : EntryIndex, tc[i].config = tb[i].config

theorem SameConfigs.actsOn_iff {tb tc : Vector MatchEntry 16} (h : SameConfigs tb tc) (k j : EntryIndex) :
    ActsOn tc k j ↔ ActsOn tb k j := by
  unfold ActsOn
  rw [h k]

theorem oneshotEffect_config (tb : Vector MatchEntry 16) (i : EntryIndex) : SameConfigs tb (oneshotEffect tb i) := by
  unfold oneshotEffect
  split
  · exact (setArmed_armFrame i false tb).config
  · exact fun _ => rfl

theorem oneshotEffect_armed (tb : Vector MatchEntry 16) (i j : EntryIndex) :
    (oneshotEffect tb i)[j].armed = if i = j ∧ tb[i].config.oneshot = true then false else tb[j].armed := by
  unfold oneshotEffect
  split
  · next on =>
    rw [setArmed_get]
    by_cases h : i = j
    · rw [if_pos h.symm, if_pos ⟨h, on⟩]
    · rw [if_neg (Ne.symm h), if_neg fun own => h own.1]
  · next off => exact (if_neg fun own => off own.2).symm

theorem linkEffect_armed_of_linked {tb : Vector MatchEntry 16} {i j : EntryIndex} {l : ArmLink}
    (link : tb[i].config.link = some l) (target : l.target = j) : (linkEffect tb i)[j].armed = decide (l.effect = .arm) := by
  unfold linkEffect
  rw [link]
  simp only [setArmed_get, target, if_true]

theorem linkEffect_armed_of_not_linked {tb : Vector MatchEntry 16} {i j : EntryIndex}
    (h : ∀ l, tb[i].config.link = some l → l.target ≠ j) : (linkEffect tb i)[j].armed = tb[j].armed := by
  unfold linkEffect
  split
  · rfl
  · next l link => rw [setArmed_get, if_neg (Ne.symm (h l link))]

/-- The arm link stands, after ONESHOT (R34, R38). -/
theorem armEffects_armed_of_linked {tb : Vector MatchEntry 16} {i j : EntryIndex} {l : ArmLink}
    (link : tb[i].config.link = some l) (target : l.target = j) : (armEffects tb i)[j].armed = decide (l.effect = .arm) :=
  linkEffect_armed_of_linked (by rw [oneshotEffect_config tb i i]; exact link) target

theorem armEffects_armed_of_not_linked {tb : Vector MatchEntry 16} {i j : EntryIndex}
    (h : ∀ l, tb[i].config.link = some l → l.target ≠ j) :
    (armEffects tb i)[j].armed = if i = j ∧ tb[i].config.oneshot = true then false else tb[j].armed := by
  rw [← oneshotEffect_armed]
  exact linkEffect_armed_of_not_linked (by rw [oneshotEffect_config tb i i]; exact h)

theorem armEffects_armed_of_not_acts {tb : Vector MatchEntry 16} {i j : EntryIndex} (h : ¬ ActsOn tb i j) :
    (armEffects tb i)[j].armed = tb[j].armed := by
  obtain ⟨own, linked⟩ := not_or.1 h
  rw [armEffects_armed_of_not_linked fun l link target => linked ⟨l, link, target⟩, if_neg own]

/-- Firing entries that do not act on an armed state leave it (R34). -/
theorem foldl_armed_of_not_acts {tb : Vector MatchEntry 16} {is : List EntryIndex} {j : EntryIndex}
    (h : ∀ k ∈ is, ¬ ActsOn tb k j) : (is.foldl armEffects tb)[j].armed = tb[j].armed := by
  induction is generalizing tb with
  | nil => rfl
  | cons i is ih =>
    have same : SameConfigs tb (armEffects tb i) := (armEffects_armFrame tb i).config
    rw [List.foldl_cons, ih fun k hk => by rw [same.actsOn_iff]; exact h k (List.mem_cons_of_mem i hk)]
    exact armEffects_armed_of_not_acts (h i (List.mem_cons_self ..))

/-- The last firing entry that acts on an armed state decides it, whatever the entries before it have done (R34, R39). -/
theorem foldl_armed_of_last {tb : Vector MatchEntry 16} {is : List EntryIndex} (asc : is.Pairwise (· < ·))
    {i j : EntryIndex} (hi : i ∈ is) (last : ∀ k ∈ is, i < k → ¬ ActsOn tb k j) :
    ∃ tc, SameConfigs tb tc ∧ (is.foldl armEffects tb)[j].armed = (armEffects tc i)[j].armed := by
  obtain ⟨before, after, rfl, -, above⟩ := split_of_ascending asc hi
  have same : SameConfigs tb (before.foldl armEffects tb) := (armEffects_foldl_armFrame before tb).config
  refine ⟨before.foldl armEffects tb, same, ?_⟩
  rw [List.foldl_append, List.foldl_cons]
  refine foldl_armed_of_not_acts fun k hk => ?_
  have same' : SameConfigs tb (armEffects (before.foldl armEffects tb) i) := fun m =>
    ((armEffects_armFrame _ i).config m).trans (same m)
  rw [same'.actsOn_iff]
  exact last k (List.mem_append_right _ (List.mem_cons_of_mem i hk)) (above k hk)

theorem countHits_config (tb : Vector MatchEntry 16) (late : Bool) (r : Request) (data : List Byte) :
    SameConfigs tb (countHits tb late r data) := by
  intro i
  rw [countHits_get]
  split <;> rfl

theorem countHits_armed (tb : Vector MatchEntry 16) (late : Bool) (r : Request) (data : List Byte) (i : EntryIndex) :
    (countHits tb late r data)[i].armed = tb[i].armed := by
  rw [countHits_get]
  split <;> rfl

/-- No firing entry acts on an armed state: it is as it was (R34). -/
theorem evaluated_armed_of_not_acts {s : State} {late : Bool} {r : Request} {data : List Byte} {j : EntryIndex}
    (h : ∀ i ∈ firedEntries s.table late r data, ¬ ActsOn s.table i j) :
    (s.evaluated late r data).table[j].armed = s.table[j].armed := by
  refine (foldl_armed_of_not_acts fun k hk => ?_).trans (countHits_armed s.table late r data j)
  rw [(countHits_config s.table late r data).actsOn_iff]
  exact h k hk

/-- The highest-indexed firing entry that acts on an armed state decides it (R34, R39). -/
theorem evaluated_armed_of_highest {s : State} {late : Bool} {r : Request} {data : List Byte} {i j : EntryIndex}
    (hi : i ∈ firedEntries s.table late r data)
    (last : ∀ k ∈ firedEntries s.table late r data, i < k → ¬ ActsOn s.table k j) :
    ∃ tc, SameConfigs s.table tc ∧ (s.evaluated late r data).table[j].armed = (armEffects tc i)[j].armed := by
  have counted := countHits_config s.table late r data
  obtain ⟨tc, same, armed⟩ := foldl_armed_of_last (firedEntries_ascending s.table late r data) hi (tb := countHits s.table
    late r data) (j := j) fun k hk hik => by rw [counted.actsOn_iff]; exact last k hk hik
  exact ⟨tc, fun m => (same m).trans (counted m), armed⟩

/-- Settles O29: the firing entries ascend, so the first that is not PASS is the lowest, and the last that acts the highest. -/
theorem lowestFiringDecidesHighestArms : Obligations.LowestFiringDecidesHighestArms := by
  refine ⟨fun tb late r data => ⟨fun pass => ?_, fun i hi act lower => ?_⟩, fun s late r data j =>
    ⟨evaluated_armed_of_not_acts, fun i hi last => ?_⟩⟩
  · simp only [earlyDisposition, decidingEntry_of_all_pass pass]
  · rw [earlyDisposition_of_deciding (decidingEntry_of_lowest (firedEntries_ascending tb late r data) hi act lower)]
    refine ⟨fun h => ?_, fun h => ?_, fun h => ?_⟩ <;> simp only [EntryConfig.disposition, h]
  · obtain ⟨tc, same, armed⟩ := evaluated_armed_of_highest hi last
    refine ⟨fun l link target => ?_, fun own oneshot free => ?_⟩
    · rw [armed]
      exact armEffects_armed_of_linked (by rw [same]; exact link) target
    · rw [armed, armEffects_armed_of_not_linked (by rw [same]; exact free), if_pos ⟨own, by rw [same]; exact oneshot⟩]

end Sys2Proof.Machine
end

-- ==== The match table's commands ====
section
/-! O31 to O33: what the commands on match entries do, which configurations are illegal, and where the fields of an entry image
stand (R43 to R47, R157, R158, R185). -/

namespace Sys2Proof.Machine

/-! ### Commands that name an entry -/

theorem withEntry_of_lt {n : Byte} (h : n.toNat < 16) (f : EntryIndex → State → Reply) (s : State) :
    withEntry n f s = f ⟨n.toNat, h⟩ s := by
  unfold withEntry
  rw [entryIndex_of_lt h]

theorem withEntry_of_ge {n : Byte} (h : 16 ≤ n.toNat) (f : EntryIndex → State → Reply) (s : State) :
    withEntry n f s = refuse .badOperand s := by
  unfold withEntry
  rw [entryIndex_of_ge h]

section

variable {s : State} {b : Batch} {c : Command} {n : Byte} {f : EntryIndex → State → Reply}

/-- An index above 15 is answered BAD-OPERAND (R47). -/
theorem entryCommand_of_ge (run : s.runs b c) (h : 16 ≤ n.toNat) :
    s.command c (withEntry n f) = .next (s.answered b c .badOperand []) := command_refused run (withEntry_of_ge h f s)

/-- A command that sets the entry it names. -/
theorem entryCommand_sets (run : s.runs b c) (h : n.toNat < 16) {e : MatchEntry}
    (hf : f ⟨n.toNat, h⟩ s = done (s.setEntry ⟨n.toNat, h⟩ e)) :
    s.command c (withEntry n f) = .next (State.answered { s with table := s.table.set n.toNat e } b c .ok []) :=
  command_done run ((withEntry_of_lt h f s).trans hf) rfl

/-- A command that is answered OK and changes nothing. -/
theorem entryCommand_idles (run : s.runs b c) (h : n.toNat < 16) (hf : f ⟨n.toNat, h⟩ s = done s) :
    s.command c (withEntry n f) = .next (s.answered b c .ok []) := command_done run ((withEntry_of_lt h f s).trans hf) rfl

/-- A command that is refused by the entry it names. -/
theorem entryCommand_refused (run : s.runs b c) (h : n.toNat < 16) {st : CmdStatus}
    (hf : f ⟨n.toNat, h⟩ s = refuse st s) : s.command c (withEntry n f) = .next (s.answered b c st []) :=
  command_refused run ((withEntry_of_lt h f s).trans hf)

end

/-- Settles O31: each of the three commands sets the entry that its index names. -/
theorem armDisarmAndClearCount : Obligations.ArmDisarmAndClearCount :=
  fun _ _ _ =>
    ⟨fun h => ⟨fun run => entryCommand_sets run h rfl, fun run => entryCommand_sets run h rfl,
      fun run => entryCommand_sets run h rfl⟩,
    fun h => ⟨fun run => entryCommand_of_ge run h, fun run => entryCommand_of_ge run h, fun run => entryCommand_of_ge run h⟩⟩

/-- Settles O32: ENABLE-ENTRY by its two tests, and DISABLE-ENTRY without one. -/
theorem enableAndDisableEntry : Obligations.EnableAndDisableEntry := by
  refine fun s b n => ⟨fun h => ⟨fun run => ⟨fun on => ?_, fun off legal => ?_, fun off illegal => ?_⟩,
    fun run => entryCommand_sets run h rfl⟩, fun h => ⟨fun run => entryCommand_of_ge run h, fun run => entryCommand_of_ge run h⟩,
    by decide⟩
  · exact entryCommand_idles (f := enableEntryAt) run h (if_pos on)
  · refine entryCommand_sets (f := enableEntryAt) run h (e := { s.table[n.toNat] with enabled := true }) ?_
    exact (if_neg (Bool.not_eq_true _ ▸ off)).trans (if_pos legal)
  · refine entryCommand_refused (f := enableEntryAt) run h ?_
    exact (if_neg (Bool.not_eq_true _ ▸ off)).trans (if_neg (Bool.not_eq_true _ ▸ illegal))

/-! ### Legal configurations -/

/-- The rules of a legal configuration, one by one (R43). -/
theorem legal_iff (c : EntryConfig) : c.legal = true ↔
    c.base.toNat ≤ c.limit.toNat ∧
    (c.kinds.read = true ∨ c.kinds.write = true ∨ c.kinds.fetch = true) ∧
    c.threshold ≠ 0 ∧
    (c.action = .hold → 1 ≤ c.budget ∧ c.budget ≤ 4095) ∧
    (c.action = .overlay → c.base.toNat % 4 = 0 ∧ 4 * c.offset + c.windowLength ≤ 1024 ∧ c.cond = none) ∧
    (c.action = .hold → c.point = .before → c.cond ≠ none → c.kinds.read = false ∧ c.kinds.fetch = false) := by
  simp only [EntryConfig.legal, Bool.and_eq_true, Bool.or_eq_true, decide_eq_true_eq, Option.isNone_iff_eq_none,
    Bool.not_eq_true', and_assoc, or_assoc, ne_eq]
  tauto

/-- The three rules of an OVERLAY entry, each with its breach (R43). -/
theorem not_overlay_rule_iff {o p q r : Prop} : ¬ (o → p ∧ q ∧ r) ↔ (o ∧ ¬ p) ∨ (o ∧ ¬ q) ∨ (o ∧ ¬ r) := by tauto

/-- The rule of a HOLD entry at BEFORE with a data condition, and its breach (R43). -/
theorem not_point_rule_iff {o p q : Prop} {k m : Bool} :
    ¬ (o → p → q → k = false ∧ m = false) ↔ o ∧ p ∧ q ∧ (k = true ∨ m = true) := by
  rw [← Bool.not_eq_true, ← Bool.not_eq_true]
  tauto

/-- A configuration is illegal where it breaks a rule (R43). -/
theorem legal_eq_false_iff (c : EntryConfig) : c.legal = false ↔
    c.limit.toNat < c.base.toNat ∨
    (c.kinds.read = false ∧ c.kinds.write = false ∧ c.kinds.fetch = false) ∨
    c.threshold = 0 ∨
    (c.action = .hold ∧ (c.budget = 0 ∨ 4095 < c.budget)) ∨
    (c.action = .overlay ∧ c.base.toNat % 4 ≠ 0) ∨
    (c.action = .overlay ∧ 1024 < 4 * c.offset + (c.limit.toNat - c.base.toNat + 1)) ∨
    (c.action = .overlay ∧ c.cond ≠ none) ∨
    (c.action = .hold ∧ c.point = .before ∧ c.cond ≠ none ∧ (c.kinds.read = true ∨ c.kinds.fetch = true)) := by
  rw [← Bool.not_eq_true, legal_iff]
  by_cases order : c.base.toNat ≤ c.limit.toNat
  · have window : c.windowLength = c.limit.toNat - c.base.toNat + 1 := by unfold EntryConfig.windowLength; omega
    rw [window]
    simp only [not_and_or]
    refine or_congr Nat.not_le (or_congr ?kinds (or_congr not_not (or_congr ?budget ?rest)))
    case kinds => simp
    case budget => rw [Classical.not_imp]; exact and_congr_right fun _ => by omega
    case rest => rw [not_overlay_rule_iff, not_point_rule_iff, or_assoc, or_assoc, Nat.not_le]
  · exact iff_of_true (fun h => order h.1) (.inl (Nat.lt_of_not_le order))

/-! ### Fields of an entry image -/

/-! The bits of each of the first four bytes as the codes that R185 gives them; a byte has 256 values. -/

theorem byte0_defined_iff (b : Byte) : b &&& 0x03 = 0 ↔ b.toNat % 4 = 0 := by
  revert b; decide

theorem byte1_defined_iff (b : Byte) :
    (b &&& 0xC8 = 0 ∧ b &&& 0x30 ≠ 0x30) ↔ b.toNat < 64 ∧ b.toNat / 8 % 2 = 0 ∧ b.toNat / 16 < 3 := by
  revert b; decide

theorem byte2_defined_iff (b : Byte) : (b &&& 0xE0 = 0 ∧ b &&& 0x08 = 0) ↔ b.toNat < 32 ∧ b.toNat / 4 % 4 < 2 := by
  revert b; decide

theorem byte3_defined_iff (b : Byte) : (b.getLsbD 7 = false ∨ b &&& 0x40 = 0 ∧ b &&& 0x10 = 0) ↔
    (128 ≤ b.toNat → b.toNat / 32 % 4 < 2 ∧ b.toNat % 32 < 16) := by
  revert b; decide

theorem filter_code (b : Byte) : b.toNat / 16 % 4 < 3 →
    [PrivFilter.any, .priv, .user].idxOf (if b.getLsbD 4 then PrivFilter.priv else if b.getLsbD 5 then .user else .any) =
      b.toNat / 16 % 4 := by
  revert b; decide

theorem action_code (b : Byte) : [Action.pass, .hold, .overlay, .fault].idxOf
    (if b.getLsbD 1 then (if b.getLsbD 0 then Action.fault else .overlay) else if b.getLsbD 0 then .hold else .pass) =
      b.toNat % 4 := by
  revert b; decide

theorem point_code (b : Byte) : b.toNat / 4 % 4 < 2 →
    [Point.before, .after].idxOf (if b.getLsbD 2 then Point.after else .before) = b.toNat / 4 % 4 := by
  revert b; decide

theorem policy_code (b : Byte) :
    [Policy.proceed, .fault].idxOf (if b.getLsbD 4 then Policy.fault else .proceed) = b.toNat / 16 % 2 := by
  revert b; decide

theorem effect_code (b : Byte) : b.toNat / 32 % 4 < 2 →
    [ArmEffect.arm, .disarm].idxOf (if b.getLsbD 5 then ArmEffect.disarm else .arm) = b.toNat / 32 % 4 := by
  revert b; decide

theorem link_present_iff (b : Byte) : b.getLsbD 7 = true ↔ 128 ≤ b.toNat := by
  revert b; decide

/-- The undefined bits and codes of an image (R158, R185). -/
theorem imageDefined_iff (im : List Byte) : imageDefined im = true ↔
    byteAt im 0 % 4 = 0 ∧ byteAt im 1 < 64 ∧ byteAt im 1 / 8 % 2 = 0 ∧ byteAt im 1 / 16 < 3 ∧
    byteAt im 2 < 32 ∧ byteAt im 2 / 4 % 4 < 2 ∧
    (128 ≤ byteAt im 3 → byteAt im 3 / 32 % 4 < 2 ∧ byteAt im 3 % 32 < 16) := by
  have bytes : imageDefined im = true ↔ imageByte im 0 &&& 0x03 = 0 ∧
      (imageByte im 1 &&& 0xC8 = 0 ∧ imageByte im 1 &&& 0x30 ≠ 0x30) ∧
      (imageByte im 2 &&& 0xE0 = 0 ∧ imageByte im 2 &&& 0x08 = 0) ∧
      ((imageByte im 3).getLsbD 7 = false ∨ imageByte im 3 &&& 0x40 = 0 ∧ imageByte im 3 &&& 0x10 = 0) := by
    simp only [imageDefined, Bool.and_eq_true, Bool.or_eq_true, decide_eq_true_eq, Bool.not_eq_true', and_assoc]
  rw [bytes, byte0_defined_iff, byte1_defined_iff, byte2_defined_iff, byte3_defined_iff]
  simp only [and_assoc]
  exact Iff.rfl

/-- One more byte at the low end of a number. -/
theorem toNat_append_byte {w : Nat} (x : BitVec w) (b : Byte) : (x ++ b).toNat = 256 * x.toNat + b.toNat := by
  rw [BitVec.toNat_append, ← Nat.shiftLeft_add_eq_or_of_lt b.isLt, Nat.shiftLeft_eq]
  omega

theorem half_toNat (a b : Byte) : (half a b).toNat = 256 * a.toNat + b.toNat := toNat_append_byte a b

theorem word_toNat (a b c d : Byte) :
    (word a b c d).toNat = 65536 * (256 * a.toNat + b.toNat) + (256 * c.toNat + d.toNat) := by
  have append : (word a b c d).toNat = 256 * (256 * (256 * a.toNat + b.toNat) + c.toNat) + d.toNat := by
    rw [← toNat_append_byte a b, ← toNat_append_byte (a ++ b) c, ← toNat_append_byte (a ++ b ++ c) d]
    rfl
  omega

theorem imageHalf_toNat (im : List Byte) (k : Nat) : (imageHalf im k).toNat = numberAt2 im k := half_toNat _ _

theorem imageWord_toNat (im : List Byte) (k : Nat) : (imageWord im k).toNat = numberAt4 im k := word_toNat _ _ _ _

/-- The link byte names its target in its low four bits (R185). -/
theorem imageLink_of_present {im : List Byte} (present : 128 ≤ byteAt im 3) (effect : byteAt im 3 / 32 % 4 < 2)
    (target : byteAt im 3 % 32 < 16) : ∃ l, imageLink im = some l ∧
      [ArmEffect.arm, .disarm].idxOf l.effect = byteAt im 3 / 32 % 4 ∧ l.target.val = byteAt im 3 % 32 := by
  refine ⟨_, if_pos ((link_present_iff (imageByte im 3)).2 present), effect_code (imageByte im 3) effect, ?_⟩
  change byteAt im 3 % 16 % 16 = byteAt im 3 % 32
  omega

/-- An image's fields stand where R185 puts them. -/
theorem imageFields_fields (im : List Byte) : FieldsOfImage im (imageFields im) where
  log := rfl
  signal := rfl
  oneshot := rfl
  kinds := rfl
  filter := filter_code (imageByte im 1)
  action := action_code (imageByte im 2)
  point := point_code (imageByte im 2)
  policy := policy_code (imageByte im 2)
  linkAbsent h := if_neg fun present => absurd ((link_present_iff (imageByte im 3)).1 present) (Nat.not_le.2 h)
  linkPresent := imageLink_of_present
  base := imageWord_toNat im 4
  limit := imageWord_toNat im 8
  condAbsent h := if_neg (Bool.not_eq_true _ ▸ h)
  condPresent h := ⟨_, if_pos h, imageWord_toNat im 12, imageWord_toNat im 16⟩
  threshold := imageHalf_toNat im 20
  budget := imageHalf_toNat im 24
  offset := rfl

/-- Settles O33: WRITE-ENTRY by its tests in their order, and the rules and fields of images above. -/
theorem writeEntryStoresOrRefuses : Obligations.WriteEntryStoresOrRefuses := by
  refine ⟨fun s b n im run => ⟨fun h => entryCommand_of_ge run h, fun h => ⟨fun on => ?_, fun off bad => ?_,
    fun off defined legal => ?_⟩⟩, legal_eq_false_iff, imageDefined_iff, imageFields_fields⟩
  · exact entryCommand_refused (f := writeEntryAt im) run h (if_pos on)
  · have refused : (imageDefined im && (imageFields im).legal) = false := by rcases bad with bad | bad <;> simp [bad]
    refine entryCommand_refused (f := writeEntryAt im) run h ?_
    exact (if_neg (Bool.not_eq_true _ ▸ off)).trans (if_neg (Bool.not_eq_true _ ▸ refused))
  · have stored : (imageDefined im && (imageFields im).legal) = true := by simp [defined, legal]
    refine entryCommand_sets (f := writeEntryAt im) run h (e := imageEntry im) ?_
    exact (if_neg (Bool.not_eq_true _ ▸ off)).trans (if_pos stored)

end Sys2Proof.Machine
end

-- ==== The layouts that the pod reads ====
section
/-! O34: the bytes that the reading commands return, each against its layout (R47, R61, R80, R95, R126, R155, R162, R163, R182,
R185 to R188). An image is a list of bytes whose length does not depend on the state, so which of its parts stands at a place
holds by computation; what a part says is a lemma about the part. -/

namespace Sys2Proof.Machine

/-! ### The parts of a layout -/

theorem byteOf_toNat (n : Nat) : (byteOf n).toNat = n % 256 := BitVec.toNat_ofNat n 8

/-- A byte whose value fits is the value. -/
theorem byteOf_toNat_of_lt {n : Nat} (h : n < 256) : (byteOf n).toNat = n := (byteOf_toNat n).trans (Nat.mod_eq_of_lt h)

theorem extract_toNat {w : Nat} (x : BitVec w) (k : Nat) : (x.extractLsb' k 8).toNat = x.toNat / 2 ^ k % 256 := by
  rw [BitVec.extractLsb'_toNat, Nat.shiftRight_eq_div_pow]

theorem byteAt_drop (bs : List Byte) (k j : Nat) : byteAt bs (k + j) = byteAt (bs.drop k) j := by
  simp [byteAt, List.getElem?_drop]

/-- A two-byte number that stands at byte `k`. -/
theorem numberAt2_of_half {bs rest : List Byte} {k : Nat} (h : Half) (place : bs.drop k = halfBytes h ++ rest) :
    numberAt2 bs k = h.toNat := by
  have bound : h.toNat < 65536 := h.isLt
  rw [numberAt2, byteAt_drop bs k 1, ← Nat.add_zero k, byteAt_drop bs k 0, Nat.add_zero, place]
  change 256 * (h.extractLsb' 8 8).toNat + (h.extractLsb' 0 8).toNat = h.toNat
  rw [extract_toNat, extract_toNat]
  omega

theorem numberAt2_of_nat {bs rest : List Byte} {k : Nat} (n : Nat) (place : bs.drop k = natBytes n ++ rest) :
    numberAt2 bs k = n % 65536 := (numberAt2_of_half _ place).trans (BitVec.toNat_ofNat n 16)

/-- A four-byte number that stands at byte `k`. -/
theorem numberAt4_of_word {bs rest : List Byte} {k : Nat} (w : Word) (place : bs.drop k = wordBytes w ++ rest) :
    numberAt4 bs k = w.toNat := by
  have bound : w.toNat < 4294967296 := w.isLt
  rw [numberAt4, numberAt2, numberAt2, Nat.add_assoc k 2 1, byteAt_drop bs k 1, byteAt_drop bs k 2, byteAt_drop bs k (2 + 1),
    ← Nat.add_zero k, byteAt_drop bs k 0, Nat.add_zero, place]
  change 65536 * (256 * (w.extractLsb' 24 8).toNat + (w.extractLsb' 16 8).toNat) +
    (256 * (w.extractLsb' 8 8).toNat + (w.extractLsb' 0 8).toNat) = w.toNat
  simp only [extract_toNat]
  omega

theorem length_padTo (n : Nat) (bs : List Byte) : (padTo n bs).length = n := by
  simp [padTo]

/-- A data string stands in its field from the first byte on (R182). -/
theorem byteAt_padTo {n k : Nat} (hk : k < n) (bs : List Byte) : byteAt (padTo n bs) k = byteAt bs k := by
  unfold byteAt padTo
  rw [List.getD_eq_getElem?_getD, List.getElem?_take_of_lt hk, ← List.getD_eq_getElem?_getD]
  by_cases h : k < bs.length
  · rw [List.getD_append _ _ _ _ h]
  · rw [List.getD_append_right _ _ _ _ (Nat.le_of_not_lt h), List.getD_eq_default bs _ (Nat.le_of_not_lt h)]
    simp

theorem bit_eq (b : Bool) (w : Nat) : bit b w = w * b.toNat := by
  cases b <;> simp [bit]

theorem filter_code_eq (f : PrivFilter) : f.code = [PrivFilter.any, .priv, .user].idxOf f := by cases f <;> rfl

theorem action_code_eq (a : Action) : a.code = [Action.pass, .hold, .overlay, .fault].idxOf a := by cases a <;> rfl

theorem point_bit (p : Point) : (decide (p = .after)).toNat = [Point.before, .after].idxOf p := by cases p <;> rfl

theorem policy_bit (p : Policy) : (decide (p = .fault)).toNat = [Policy.proceed, .fault].idxOf p := by cases p <;> rfl

theorem effect_bit (e : ArmEffect) : (decide (e = .disarm)).toNat = [ArmEffect.arm, .disarm].idxOf e := by cases e <;> rfl

theorem mode_bit (m : TraceMode) : (decide (m = .wrap)).toNat = [TraceMode.stop, .wrap].idxOf m := by cases m <;> rfl

theorem recordKind_code (k : RecordKind) :
    k.code.toNat = 1 + [RecordKind.fire, .lateFire, .holdEnd, .protocol, .system].idxOf k := by cases k <;> rfl

theorem outcome_code (o : TraceOutcome) : o.code.toNat = 1 + [TraceOutcome.passed, .held, .overlaid, .faulted,
    .overlayStraddle, .holdRefused, .holdSuppressed, .released, .amendedReleased, .failed, .expiredProceeded,
    .expiredFaulted, .dropped, .cleared, .misaligned, .malformed, .requesterReset].idxOf o := by cases o <;> rfl

theorem accessByte_toNat (k : Kind) (z : Size) (p : Privilege) : (accessByte k z p).toNat = transactionNumber k z p := by
  cases k <;> cases z <;> cases p <;> rfl

/-! ### The match entry image (R185) -/

theorem linkByte_toNat (l : ArmLink) :
    (linkByte (some l)).toNat = 128 + 32 * [ArmEffect.arm, .disarm].idxOf l.effect + l.target.val := by
  have target := l.target.isLt
  have effect := Bool.toNat_le (decide (l.effect = .disarm))
  rw [← effect_bit, ← bit_eq]
  exact byteOf_toNat_of_lt (by rw [bit_eq]; omega)

theorem condBytes_length (c : Option DataCond) : (condBytes c).length = 8 := by cases c <;> rfl

/-- The part of an entry image that follows the data condition. -/
def MatchEntry.tailBytes (e : MatchEntry) : List Byte :=
  natBytes e.config.threshold ++ natBytes e.hits ++ natBytes e.config.budget ++ [byteOf e.config.offset]

/-- Bytes 20 to 26 stand behind the data condition, whether it is present or not. -/
theorem drop_image_tail (e : MatchEntry) : e.image.drop 20 = e.tailBytes := by
  unfold MatchEntry.image
  cases e.config.cond <;> rfl

theorem drop_image_of_tail (e : MatchEntry) (k : Nat) : e.image.drop (20 + k) = e.tailBytes.drop k := by
  rw [← drop_image_tail, List.drop_drop]

theorem image_condAbsent {e : MatchEntry} (h : e.config.cond = none) (k : Nat) (low : 12 ≤ k) (high : k < 20) :
    byteAt e.image k = 0 := by
  unfold MatchEntry.image
  rw [h]
  interval_cases k <;> rfl

theorem image_condPresent {e : MatchEntry} {c : DataCond} (h : e.config.cond = some c) :
    numberAt4 e.image 12 = c.mask.toNat ∧ numberAt4 e.image 16 = c.value.toNat := by
  unfold MatchEntry.image
  rw [h]
  exact ⟨numberAt4_of_word (rest := wordBytes c.value ++ e.tailBytes) c.mask rfl,
    numberAt4_of_word (rest := e.tailBytes) c.value rfl⟩

/-- The image of an entry, field by field (R185). -/
theorem image_of_entry (e : MatchEntry) : EntryImageOf e e.image where
  length := by
    unfold MatchEntry.image
    cases e.config.cond <;> rfl
  flags := by
    have place : byteAt e.image 0 = (byteOf _).toNat := rfl
    have flag := Bool.toNat_le
    have := flag e.enabled
    have := flag e.armed
    have := flag e.config.log
    have := flag e.config.signal
    have := flag e.config.oneshot
    have := flag e.config.cond.isSome
    rw [place, byteOf_toNat]
    simp only [bit_eq]
    omega
  kinds := by
    have place : byteAt e.image 1 = (byteOf _).toNat := rfl
    have flag := Bool.toNat_le
    have := flag e.config.kinds.read
    have := flag e.config.kinds.write
    have := flag e.config.kinds.fetch
    have : [PrivFilter.any, .priv, .user].idxOf e.config.filter ≤ 3 := List.idxOf_le_length
    rw [place, byteOf_toNat, filter_code_eq]
    simp only [bit_eq]
    omega
  action := by
    have place : byteAt e.image 2 = (byteOf _).toNat := rfl
    have : [Action.pass, .hold, .overlay, .fault].idxOf e.config.action ≤ 4 := List.idxOf_le_length
    have : [Point.before, .after].idxOf e.config.point ≤ 2 := List.idxOf_le_length
    have : [Policy.proceed, .fault].idxOf e.config.policy ≤ 2 := List.idxOf_le_length
    rw [place, byteOf_toNat, action_code_eq]
    simp only [bit_eq, point_bit, policy_bit]
    omega
  linkAbsent h := by
    have place : byteAt e.image 3 = (linkByte e.config.link).toNat := rfl
    rw [place, h]
    rfl
  linkPresent l h := by
    have place : byteAt e.image 3 = (linkByte e.config.link).toNat := rfl
    rw [place, h, linkByte_toNat]
  base := numberAt4_of_word (rest := e.image.drop 8) _ rfl
  limit := numberAt4_of_word (rest := e.image.drop 12) _ rfl
  condAbsent := image_condAbsent
  condPresent c := image_condPresent
  threshold := numberAt2_of_nat (rest := e.tailBytes.drop 2) _ (drop_image_of_tail e 0)
  hits := numberAt2_of_nat (rest := e.tailBytes.drop 4) _ (drop_image_of_tail e 2)
  budget := numberAt2_of_nat (rest := e.tailBytes.drop 6) _ (drop_image_of_tail e 4)
  offset := by
    rw [byteAt_drop e.image 20 6, drop_image_tail]
    exact byteOf_toNat _

/-! ### The trace record image (R186) -/

theorem image_of_record (r : TraceRecord) : TraceImageOf r r.image where
  length := by simp [TraceRecord.image, halfBytes, wordBytes, length_padTo]
  seq := numberAt2_of_half (rest := r.image.drop 2) _ rfl
  stamp := numberAt4_of_word (rest := r.image.drop 6) _ rfl
  kind := recordKind_code r.note.kind
  presence := by
    have place : byteAt r.image 7 = (byteOf _).toNat := rfl
    have flag := Bool.toNat_le
    have := flag r.note.entry.isSome
    have := flag r.note.hold.isSome
    have := flag r.note.access.isSome
    have := flag (decide (r.note.data ≠ []))
    rw [place, byteOf_toNat]
    simp only [bit_eq]
    omega
  entryAbsent h := by
    have place : byteAt r.image 8 = r.note.entryByte.toNat := rfl
    rw [place, TraceNote.entryByte, h]
    rfl
  entryPresent i h := by
    have place : byteAt r.image 8 = r.note.entryByte.toNat := rfl
    have index := i.isLt
    rw [place, TraceNote.entryByte, h]
    exact byteOf_toNat_of_lt (by omega)
  hold := rfl
  accessAbsent h := by
    have place : byteAt r.image 10 = r.note.accessByte.toNat := rfl
    have addr : numberAt4 r.image 12 = r.note.addr.toNat := numberAt4_of_word (rest := r.image.drop 16) _ rfl
    rw [place, addr, TraceNote.accessByte, TraceNote.addr, h]
    exact ⟨rfl, rfl⟩
  accessPresent a h := by
    have place : byteAt r.image 10 = r.note.accessByte.toNat := rfl
    have addr : numberAt4 r.image 12 = r.note.addr.toNat := numberAt4_of_word (rest := r.image.drop 16) _ rfl
    rw [place, addr, TraceNote.accessByte, TraceNote.addr, h]
    exact ⟨accessByte_toNat _ _ _, rfl⟩
  outcome := outcome_code r.note.outcome
  data k hk := by
    have place : byteAt r.image (k + 16) = byteAt (padTo 4 r.note.data) k := rfl
    rw [Nat.add_comm, place, byteAt_padTo hk]

/-! ### The hold record image (R187) -/

theorem tagPoint_toNat (h : Hold) : h.tagPoint.toNat = h.tag.val + 128 * [Point.before, .after].idxOf h.point := by
  have tag := h.tag.isLt
  have point := Bool.toNat_le (decide (h.point = .after))
  rw [← point_bit, ← bit_eq]
  exact byteOf_toNat_of_lt (by rw [bit_eq]; omega)

theorem image_of_hold (h : Hold) : HoldImageOf h h.image where
  length := by simp [Hold.image, natBytes, halfBytes, wordBytes, length_padTo]
  id := rfl
  tagPoint := tagPoint_toNat h
  entry := by
    have index := h.entry.isLt
    exact byteOf_toNat_of_lt (by omega)
  access := accessByte_toNat _ _ _
  addr := numberAt4_of_word (rest := h.image.drop 8) _ rfl
  remaining := numberAt2_of_nat (rest := h.image.drop 10) _ rfl
  state := by
    have place : byteAt h.image 10 = (byteOf _).toNat := rfl
    have flag := Bool.toNat_le
    have := flag h.amended
    have := flag h.downstream.isSome
    have := flag (decide (h.downstream = some .fault))
    have : [Policy.proceed, .fault].idxOf h.policy ≤ 2 := List.idxOf_le_length
    rw [place, byteOf_toNat]
    simp only [bit_eq, policy_bit]
    omega
  extended := byteOf_toNat h.extended
  dataLength := byteOf_toNat h.data.length
  data k hk := by
    have place : byteAt h.image (k + 13) = byteAt (padTo 16 h.data) k := rfl
    rw [Nat.add_comm, place, byteAt_padTo hk]

/-! ### The status record (R188) -/

/-- The sum of the weights of the bits that are set is the number with these bits. -/
theorem sum_weights_eq_ofBits {n : Nat} (f : Fin n → Bool) :
    ((List.finRange n).map fun i => bit (f i) (2 ^ i.val)).sum = Nat.ofBits f := by
  induction n with
  | zero => rfl
  | succ n ih =>
    rw [List.finRange_succ, List.map_cons, List.sum_cons, List.map_map, Nat.ofBits_succ, ← ih, ← List.sum_map_mul_left,
      Nat.add_comm]
    simp only [Function.comp_def, bit_eq, Fin.val_zero, pow_zero, one_mul, Fin.val_succ, pow_succ', mul_assoc]

/-- Bit `i` of a set of entries says whether entry `i` has the property (R188). -/
theorem testBit_entrySet (tb : Vector MatchEntry 16) (p : MatchEntry → Bool) (i : EntryIndex) :
    (entrySet tb p).testBit i.val = p tb[i] := by
  unfold entrySet
  rw [sum_weights_eq_ofBits fun i : EntryIndex => p tb[i], Nat.testBit_ofBits_lt _ _ i.isLt]

theorem entrySet_lt (tb : Vector MatchEntry 16) (p : MatchEntry → Bool) : entrySet tb p < 65536 := by
  unfold entrySet
  rw [sum_weights_eq_ofBits fun i : EntryIndex => p tb[i]]
  exact Nat.ofBits_lt_two_pow _

theorem pulseInProgress_eq (s : State) : s.pulseInProgress = decide (s.pulse ≠ none ∧ s.pulse ≠ some 0) := by
  unfold State.pulseInProgress
  rcases s.pulse with _ | _ | n <;> simp

theorem statusRecord_of_state (s : State) : StatusRecordOf s s.statusRecord where
  length := rfl
  link := rfl
  group := rfl
  attention := by
    have place : byteAt s.statusRecord 2 = (byteOf _).toNat := rfl
    have flag := Bool.toNat_le
    have := flag s.attentionEnable
    have := flag s.attention.join
    have := flag s.attention.hold.isSome
    have := flag s.attention.expiry.isSome
    have := flag s.attention.trace.isSome
    rw [place, byteOf_toNat]
    simp only [bit_eq]
    omega
  holdDetail := rfl
  expiryDetail := rfl
  traceDetail := rfl
  holdsInUse := byteOf_toNat _
  nextHoldId := rfl
  refusedHolds := numberAt2_of_nat (rest := s.statusRecord.drop 10) _ rfl
  modes := by
    have place : byteAt s.statusRecord 10 = (byteOf _).toNat := rfl
    have flag := Bool.toNat_le
    have := flag s.noHold
    have := flag s.protocolRecords
    have : [TraceMode.stop, .wrap].idxOf s.traceMode ≤ 2 := List.idxOf_le_length
    rw [place, byteOf_toNat]
    simp only [bit_eq, mode_bit]
    omega
  fill := numberAt2_of_nat (rest := s.statusRecord.drop 13) _ rfl
  threshold := numberAt2_of_nat (rest := s.statusRecord.drop 15) _ rfl
  lost := numberAt2_of_nat (rest := s.statusRecord.drop 17) _ rfl
  board room := by
    have place : byteAt s.statusRecord 17 = (byteOf _).toNat := rfl
    have flag := Bool.toNat_le
    have := flag s.eventLatch
    have := flag s.rqrstIn
    have := flag s.pulseInProgress
    rw [place, byteOf_toNat, ← pulseInProgress_eq]
    simp only [bit_eq]
    omega
  checkErrors := byteOf_toNat _
  enabled i := by
    rw [numberAt2_of_nat (rest := s.statusRecord.drop 21) (entrySet s.table (·.enabled)) rfl, Nat.mod_eq_of_lt (entrySet_lt _ _)]
    exact testBit_entrySet _ _ i
  armed i := by
    rw [numberAt2_of_nat (rest := []) (entrySet s.table (·.armed)) rfl, Nat.mod_eq_of_lt (entrySet_lt _ _)]
    exact testBit_entrySet _ _ i

/-! ### The commands -/

/-- Settles O34: each command changes nothing, and its results are an image above or read off the state. -/
theorem readingCommandsReturnAndChangeNothing : Obligations.ReadingCommandsReturnAndChangeNothing := by
  refine fun s b => ⟨fun run => ⟨command_reads run rfl, statusRecord_of_state s⟩, fun run => command_reads run rfl,
    fun n h run => ⟨command_reads run (withEntry_of_lt h readEntryAt s), image_of_entry _⟩,
    fun st n run low high room => ?_, fun n run low high => ⟨command_reads run (if_pos ⟨low, high⟩), fun r _ =>
      image_of_record r⟩, fun run => ⟨command_reads run rfl, fun h _ => tagPoint_toNat h⟩, fun id h run find => ⟨?_,
      image_of_hold h⟩⟩
  · have range : overlayRange st n = true := by simp [overlayRange, low, high, room]
    exact ⟨_, command_reads run (if_pos range), Memory.readRange_length _ _ _, fun k hk => Memory.readRange_getElem? _ hk⟩
  · refine command_reads run (body := withHold id inspectHold) ?_
    unfold withHold
    rw [find]
    rfl

end Sys2Proof.Machine
end

-- ==== The records of an evaluation ====
section
/-! O30: the FIRE and LATE-FIRE records of an event, their outcome and hold id, and the record of a refused hold (R35, R42, R53,
R59, R94). -/

namespace Sys2Proof.Machine

/-! ### What the trace unit makes of the records -/

/-- Two states in which the trace unit stands the same: its log, its next number, its mode and the tick count (R88 to R91). -/
structure LogSame (s t : State) : Prop where
  log : t.log = s.log
  nextSeq : t.nextSeq = s.nextSeq
  tickCount : t.tickCount = s.tickCount
  traceMode : t.traceMode = s.traceMode

/-- The log after one record (R90, R91). -/
theorem append_log (s : State) (n : TraceNote) : (s.append n).log =
    if s.logDiscards then s.log else (if s.logFull then s.log.drop 1 else s.log) ++ [⟨s.nextSeq, s.tickCount, n⟩] := rfl

theorem LogSame.append {s t : State} (h : LogSame s t) (n : TraceNote) : LogSame (s.append n) (t.append n) := by
  obtain ⟨log, nextSeq, tickCount, traceMode⟩ := h
  have full : t.logFull = s.logFull := by unfold State.logFull; rw [log]
  have discards : t.logDiscards = s.logDiscards := by unfold State.logDiscards; rw [full, traceMode]
  constructor
  · simp only [append_log, discards, full, log, nextSeq, tickCount]
  · simp only [State.append_nextSeq, discards, nextSeq]
  · exact tickCount
  · exact traceMode

/-- The records of an event make the same log of the same log. -/
theorem LogSame.appendAll {s t : State} (h : LogSame s t) (ns : List TraceNote) : (t.appendAll ns).log = (s.appendAll ns).log := by
  induction ns generalizing s t with
  | nil => exact h.log
  | cons n ns ih => exact ih (h.append n)

theorem KeepsAllBut.logSame {ps : List Piece} {s t : State} (k : KeepsAllBut ps s t)
    (apart : ∀ p ∈ [Piece.log, .trace, .clock], p ∉ ps) : LogSame s t := by
  have log : Piece.log.Same s t := k.same (apart _ (by decide))
  have trace : Piece.trace.Same s t := k.same (apart _ (by decide))
  have clock : Piece.clock.Same s t := k.same (apart _ (by decide))
  simp only [Piece.Same, Prod.mk.injEq] at log trace clock
  exact ⟨log.1, log.2.1, clock.1, trace.1⟩

/-! ### Verdicts -/

theorem holdVerdict_of_created {s : State} {id : Byte} (h : s.holdAnswer = .created id) (g : Hold) :
    s.holdVerdict g = ⟨.held, some id, []⟩ := by
  simp only [State.holdVerdict, State.refusalNotes, h]

theorem holdVerdict_of_suppressed {s : State} (h : s.holdAnswer = .suppressed) (g : Hold) :
    s.holdVerdict g = ⟨.holdSuppressed, none, []⟩ := by
  simp only [State.holdVerdict, State.refusalNotes, h]

theorem holdVerdict_of_refused {s : State} (h : s.holdAnswer = .refused) (g : Hold) :
    s.holdVerdict g = ⟨.holdRefused, none, [g.endNote none .holdRefused]⟩ := by
  simp only [State.holdVerdict, State.refusalNotes, h]

theorem enterVerdict_of_pass {s : State} {x : Transaction} (h : x.disposition = some .pass) :
    s.enterVerdict x = ⟨.passed, none, []⟩ := by
  simp only [State.enterVerdict, State.carryVerdict, h, ite_self]

theorem enterVerdict_of_after {s : State} {x : Transaction} {e : EntryIndex} {b : Nat} {p : Policy}
    (h : x.disposition = some (.hold e .after b p)) : s.enterVerdict x = ⟨.held, none, []⟩ := by
  simp only [State.enterVerdict, State.carryVerdict, h, ite_self]

/-- A BEFORE hold is asked for at once, or when its parked slot unparks (R9, R10, R35). -/
theorem enterVerdict_of_before {s : State} {x : Transaction} {e : EntryIndex} {b : Nat} {p : Policy}
    (h : x.disposition = some (.hold e .before b p)) : s.enterVerdict x =
      if s.blocked x.position x.request then ⟨.held, none, []⟩ else s.holdVerdict (beforeHold x e b p) := by
  simp only [State.enterVerdict, State.carryVerdict, h]

/-- The data of a refused BEFORE hold's record (R59, R87). -/
theorem beforeHold_endNote (x : Transaction) (e : EntryIndex) (b : Nat) (p : Policy) (id : Option Byte) (o : TraceOutcome) :
    (beforeHold x e b p).endNote id o = ⟨.holdEnd, some e, id, some (traced x.request),
      if x.request.kind = .write ∧ x.request.size ≠ .line then x.request.data else [], o⟩ := by
  unfold Hold.endNote beforeHold traced
  by_cases hz : x.request.size = .line
  · simp [hz]
  · by_cases hk : x.request.kind = .write <;> simp [hz, hk]

/-! ### Arrivals -/

/-- The pieces that an arrival changes before its records are sent. -/
def entryPieces : List Piece := [.port, .slots, .holds, .table, .latch, .store]

theorem carryOut_keeps (mayHold : Bool) (x : Transaction) (s : State) :
    KeepsAllBut [.slots, .holds] s (s.carryOut mayHold x) := by
  have put : ∀ {u : State} (y : Transaction), KeepsAllBut [.slots, .holds] u (u.putSlot x.request.tag y) := fun y =>
    (putSlot_keeps _ y _).mono (by decide)
  unfold State.carryOut
  split
  · split
    · exact ((askHold_keeps _ s).mono (by decide)).trans (put _)
    · exact put _
  · exact put _

theorem enter_keeps (x : Transaction) (s : State) : KeepsAllBut [.slots, .holds] s (s.enter x) := by
  unfold State.enter
  split
  · exact (putSlot_keeps _ _ s).mono (by decide)
  · exact carryOut_keeps true x s

/-- The log after an arrival's records, which are sent last (R94). -/
theorem arrival_log {s u : State} {ps : List Piece} {r : Request} (k : KeepsAllBut ps (s.judged r) u)
    (sub : ps ⊆ entryPieces) (v : Verdict) :
    (u.appendAll (s.arrivalNotes r v)).log = (s.appendAll (s.arrivalNotes r v)).log := by
  have judged := (judged_keeps r s).mono (qs := entryPieces) (by decide)
  exact ((judged.trans (k.mono sub)).logSame (by decide)).appendAll _

/-- What the records of an arrival say, by its disposition (R35). -/
inductive ArrivalSays (s : State) (r : Request) : Verdict → Prop
  | passed (h : s.early r = .pass) : ArrivalSays s r ⟨.passed, none, []⟩
  | faulted {e : EntryIndex} (h : s.early r = .fault e) : ArrivalSays s r ⟨.faulted, none, []⟩
  | overlaid {e : EntryIndex} {base limit : Word} {offset : Nat} (h : s.early r = .overlay e base limit offset)
    (inside : whollyInside base limit r = true) : ArrivalSays s r ⟨.overlaid, none, []⟩
  | straddles {e : EntryIndex} {base limit : Word} {offset : Nat} (h : s.early r = .overlay e base limit offset)
    (out : whollyInside base limit r = false) : ArrivalSays s r ⟨.overlayStraddle, none, []⟩
  | heldAfter {e : EntryIndex} {b : Nat} {p : Policy} (h : s.early r = .hold e .after b p) :
    ArrivalSays s r ⟨.held, none, []⟩
  | parks {e : EntryIndex} {b : Nat} {p : Policy} (h : s.early r = .hold e .before b p)
    (blocked : s.blocked s.nextPosition r = true) : ArrivalSays s r ⟨.held, none, []⟩
  | asks {e : EntryIndex} {b : Nat} {p : Policy} (h : s.early r = .hold e .before b p)
    (clear : s.blocked s.nextPosition r = false) : ArrivalSays s r (s.holdVerdict (beforeHold (s.entrant r) e b p))

theorem serveOverlay_straddle_iff {base limit : Word} {offset : Nat} {r : Request} {m : List Host.Cell} :
    serveOverlay base limit offset r m = .straddle ↔ whollyInside base limit r = false := by
  unfold serveOverlay
  split
  · next h => split_ifs <;> simp [h]
  · next h => simp [h]

/-- The verdict on a request that goes toward memory, in the state that its acceptance and evaluation leave. -/
theorem arrivalSays_of_entering {s : State} {r : Request} (h : s.early r = .pass ∨ ∃ e p b q, s.early r = .hold e p b q) :
    ArrivalSays s r ((s.judged r).enterVerdict (s.entrant r)) := by
  rcases h with h | ⟨e, p, b, q, h⟩
  · rw [enterVerdict_of_pass (congrArg some h)]
    exact .passed h
  · cases p with
    | after =>
      rw [enterVerdict_of_after (congrArg some h)]
      exact .heldAfter h
    | before =>
      have blocked : (s.judged r).blocked (s.entrant r).position (s.entrant r).request = s.blocked s.nextPosition r :=
        blocked_congr rfl _ _
      rw [enterVerdict_of_before (congrArg some h), blocked]
      split
      · next hb => exact .parks h hb
      · next hb => exact .asks h (by simpa using hb)

/-- The log after an arrival that passes the protocol check: its records are those of its verdict (R35, R94). -/
theorem arriveRight_log {s t : State} {r : Request} (h : s.arriveRight r = .next t) :
    ∃ v, ArrivalSays s r v ∧ t.log = (s.appendAll (s.arrivalNotes r v)).log := by
  have entering : ∀ d, s.early r = d → (d = .pass ∨ ∃ e p b q, d = .hold e p b q) →
      ∃ v, ArrivalSays s r v ∧ t.log = (s.appendAll (s.arrivalNotes r v)).log := by
    rintro d rfl hd
    rw [arriveRight_of_entering hd] at h
    cases h
    exact ⟨_, arrivalSays_of_entering hd, arrival_log (enter_keeps _ _) (by decide) _⟩
  cases hd : s.early r with
  | pass => exact entering _ hd (.inl rfl)
  | hold e p b q => exact entering _ hd (.inr ⟨e, p, b, q, rfl⟩)
  | fault e =>
    rw [arriveRight_of_fault hd] at h
    cases h
    exact ⟨_, .faulted hd, arrival_log (answerSlot_keeps _ _ _ _) (by decide) _⟩
  | overlay e base limit offset =>
    rw [arriveRight_of_overlay hd] at h
    split at h
    · next hs =>
      cases h
      have inside : whollyInside base limit r = true := by
        rw [← Bool.not_eq_false, ← serveOverlay_straddle_iff, hs]
        nofun
      refine ⟨_, .overlaid hd inside, arrival_log (ps := entryPieces) ?_ (List.Subset.refl _) _⟩
      exact ((putStore_keeps _ _).mono (by decide)).trans ((answerSlot_keeps _ _ _ _).mono (by decide))
    · next hs =>
      cases h
      exact ⟨_, .straddles hd (serveOverlay_straddle_iff.1 hs), arrival_log (answerSlot_keeps _ _ _ _) (by decide) _⟩
    · cases h

/-! ### Returns -/

/-- The records of a return with a verdict (R42, R94). -/
def State.returnNotes (x : Transaction) (r : MemReturn) (v : Verdict) (s : State) : List TraceNote :=
  fireNotes .lateFire s.table (s.lateFired x r) x.request r.data v ++ v.after

/-- A return that is not late-evaluated fires no entry, so that its records carry the returned data (R40, R42). -/
theorem returnNotes_eq (s : State) (x : Transaction) (r : MemReturn) (v : Verdict) :
    fireNotes .lateFire s.table (s.lateFired x r) x.request (returnedResponse x r).data v ++ v.after =
      s.returnNotes x r v := by
  unfold State.returnNotes returnedResponse State.lateFired
  split <;> rfl

/-- What the records of a return say, by its late result (R35, R42). -/
def State.returnVerdict (x : Transaction) (r : MemReturn) (s : State) : Verdict :=
  match s.lateResult x r with
  | .fault => ⟨.faulted, none, []⟩
  | .hold e b p => s.holdVerdict (afterHold x (returnedResponse x r) e b p)
  | .answer => ⟨.passed, none, []⟩

/-- The late evaluation changes nothing that a hold's answer looks at (R53, R54). -/
theorem lateState_holdVerdict (x : Transaction) (r : MemReturn) (s : State) (g : Hold) :
    (s.lateState x r).holdVerdict g = s.holdVerdict g := by
  obtain ⟨tb, l, late⟩ := lateState_eq x r s
  rw [late]
  rfl

theorem holdResponse_keeps (u : Tag) (x : Transaction) (resp : BusResponse) (g : Hold) (s : State) :
    KeepsAllBut [.slots, .holds] s (s.holdResponse u x resp g) := by
  have asked := (askHold_keeps g s).mono (qs := [.slots, .holds]) (by decide)
  unfold State.holdResponse
  split
  · exact asked.trans ((putSlot_keeps _ _ _).mono (by decide))
  all_goals exact asked.trans ((answerSlot_keeps _ _ _ _).mono (by decide))

/-- The log after a return: its records are those of its verdict (R42, R94). -/
theorem returnToSlot_log (s : State) (u : Tag) (x : Transaction) (r : MemReturn) :
    (s.returnToSlot u x r).log = (s.appendAll (s.returnNotes x r (s.returnVerdict x r))).log := by
  have late := (lateState_keeps x r s).mono (qs := [.table, .latch, .slots, .holds]) (by decide)
  have sent : ∀ {w : State} {ps : List Piece} (ns : List TraceNote), KeepsAllBut ps (s.lateState x r) w →
      ps ⊆ [.table, .latch, .slots, .holds] → (w.appendAll ns).log = (s.appendAll ns).log := fun ns k sub =>
    ((late.trans (k.mono sub)).logSame (by decide)).appendAll ns
  unfold State.returnToSlot State.returnVerdict
  rw [← returnNotes_eq]
  cases s.lateResult x r with
  | fault => exact sent _ (answerSlot_keeps _ _ _ _) (by decide)
  | hold e b p =>
    dsimp only
    rw [lateState_holdVerdict]
    exact sent _ (holdResponse_keeps _ _ _ _ _) (by decide)
  | answer => exact sent _ (answerSlot_keeps _ _ _ _) (by decide)

/-- Settles O30: each event's records are sent last, with the verdict that its disposition or its late result gives. -/
theorem firingEntriesWithLogAreTraced : Obligations.FiringEntriesWithLogAreTraced := by
  refine ⟨firedEntries_ascending, fun s t r hs ok ht => ?_, fun s t q r m rest u x ready hi hx hst hr ht => ?_⟩
  · rw [exec_requestArrival_of_admits hs, arrive_of_right ok] at ht
    obtain ⟨v, verdict, log⟩ := arriveRight_log ht
    refine ⟨v.outcome, v.hold, v.after, log, ?_⟩
    have early : earlyDisposition s.table (firedEntries s.table false r r.data) = s.early r := rfl
    rw [early]
    cases verdict with
    | passed h => rw [h]; exact ⟨rfl, rfl, rfl⟩
    | faulted h => rw [h]; exact ⟨rfl, rfl, rfl⟩
    | overlaid h inside => rw [h]; exact ⟨(if_pos inside).symm, rfl, rfl⟩
    | straddles h out => rw [h]; exact ⟨(if_neg (Bool.not_eq_true _ ▸ out)).symm, rfl, rfl⟩
    | heldAfter h => rw [h]; exact ⟨rfl, rfl, rfl⟩
    | parks h blocked => rw [h]; simp [blocked]
    | asks h clear =>
      rw [h]
      simp only [clear]
      cases ha : s.holdAnswer with
      | created id => rw [holdVerdict_of_created ha]; exact ⟨rfl, rfl, rfl⟩
      | suppressed => rw [holdVerdict_of_suppressed ha]; exact ⟨rfl, rfl, rfl⟩
      | refused => rw [holdVerdict_of_refused ha, beforeHold_endNote]; exact ⟨rfl, rfl, rfl⟩
  · rw [exec_memoryReturn_of_issued ready hi hx hst, ← hr] at ht
    cases ht
    have log := (returnToSlot_log (s.putIssue rest) u x r).trans
      (((putIssue_keeps rest s).logSame (by decide)).appendAll (s.returnNotes x r (s.returnVerdict x r)))
    refine ⟨_, _, _, log, ?_⟩
    unfold State.returnVerdict
    cases s.lateResult x r with
    | fault => exact ⟨rfl, rfl, rfl⟩
    | answer => exact ⟨rfl, rfl, rfl⟩
    | hold e b p =>
      dsimp only
      cases ha : s.holdAnswer with
      | created id => rw [holdVerdict_of_created ha]; exact ⟨rfl, rfl, rfl⟩
      | suppressed => rw [holdVerdict_of_suppressed ha]; exact ⟨rfl, rfl, rfl⟩
      | refused => rw [holdVerdict_of_refused ha]; exact ⟨rfl, rfl, rfl⟩

end Sys2Proof.Machine
end

-- ==== CLEAR-UNIT ====
section
/-! O49: the five events of CLEAR-UNIT, each taken when it comes next in the batch (R48, R72, R84, R101, R171). -/

namespace Sys2Proof.Machine

theorem setClearing_of_batch {s : State} {b : Batch} (h : s.batch = some b) (c : Option ClearStep) :
    s.setClearing c = { s with batch := some { b with clearing := c } } := by
  simp [State.setClearing, h]

/-- A later event of CLEAR-UNIT that comes next acts on the state as it stands (R171). -/
theorem clearEvent_of_next {s : State} {b : Batch} {c : ClearStep} (ready : s.ready) (hb : s.batch = some b)
    (hc : b.clearing = some c) (f : State → State) : s.clearEvent c f = .next (f s) := by
  have next : s.clearingStep = some c := by rw [State.clearingStep, hb]; exact hc
  unfold State.clearEvent
  rw [event_of_ready ready, if_pos next]

/-! ### The second event, at the hold controller -/

/-- The next hold id and the flags of the hold controller are as they were (R51, R70). -/
structure HoldsQuiet (s t : State) : Prop where
  nextHoldId : t.nextHoldId = s.nextHoldId
  holdFlag : t.attention.hold = s.attention.hold
  expiryFlag : t.attention.expiry = s.attention.expiry

theorem HoldsQuiet.refl (s : State) : HoldsQuiet s s := ⟨rfl, rfl, rfl⟩

theorem HoldsQuiet.trans {s t u : State} (h : HoldsQuiet s t) (k : HoldsQuiet t u) : HoldsQuiet s u :=
  ⟨k.nextHoldId.trans h.nextHoldId, k.holdFlag.trans h.holdFlag, k.expiryFlag.trans h.expiryFlag⟩

theorem append_quiet (s : State) (n : TraceNote) : HoldsQuiet s (s.append n) :=
  ⟨rfl, (appendAll_attention [n] s).2.1, (appendAll_attention [n] s).2.2⟩

/-- Where no hold may be created, unparking asks for none (R72). -/
theorem unparkOne_quiet (s : State) (t : Tag) : HoldsQuiet s (s.unparkOne false t) := by
  unfold State.unparkOne State.carryOut
  split
  · exact .refl s
  · split
    · simp only [Bool.false_eq_true, if_false, appendAll_nil]
      split <;> exact ⟨rfl, rfl, rfl⟩
    · exact .refl s

theorem unparkPass_quiet (s : State) : HoldsQuiet s (s.unparkPass false) := by
  unfold State.unparkPass
  generalize s.parkedTags = ts
  induction ts generalizing s with
  | nil => exact .refl s
  | cons t ts ih => exact (unparkOne_quiet s t).trans (ih _)

theorem deliver_quiet (s : State) (proceeds : Bool) (g : Hold) : HoldsQuiet s (s.deliver proceeds g) := by
  unfold State.deliver
  split
  · exact .refl s
  · split
    · split <;> exact ⟨rfl, rfl, rfl⟩
    · exact ⟨rfl, rfl, rfl⟩

/-- A hold that ends without expiring, and without new holds, posts neither flag (R57, R72). -/
theorem endHold_quiet (s : State) (g : Hold) (proceeds : Bool) (o : TraceOutcome) :
    HoldsQuiet s (s.endHold false proceeds false o g) := by
  have removed : HoldsQuiet s (s.removeHold g.id) := ⟨rfl, rfl, rfl⟩
  have ended := removed.trans ((deliver_quiet _ proceeds g).trans (append_quiet _ (g.endNote (some g.id) o)))
  unfold State.endHold
  split
  · exact ended.trans (unparkPass_quiet _)
  · exact ended

theorem endHolds_quiet (gs : List Hold) (s : State) :
    HoldsQuiet s (gs.foldl (State.endHold false true false .cleared) s) := by
  induction gs generalizing s with
  | nil => exact .refl s
  | cons g gs ih => exact (endHold_quiet s g _ _).trans (ih _)

/-- Of the hold queue the records are left whose id is none of those that end. -/
theorem mem_endHolds {gs : List Hold} {s : State} {k : Hold}
    (h : k ∈ (gs.foldl (State.endHold false true false .cleared) s).holds) : k ∈ s.holds ∧ ∀ g ∈ gs, k.id ≠ g.id := by
  induction gs generalizing s with
  | nil => exact ⟨h, nofun⟩
  | cons g gs ih =>
    obtain ⟨left, rest⟩ := ih h
    rw [endHold_holds, List.mem_filter, decide_eq_true_eq] at left
    exact ⟨left.1, List.forall_mem_cons.2 ⟨left.2, rest⟩⟩

theorem clearHolds_empties (s : State) : s.clearHolds.holds = [] := by
  refine List.eq_nil_iff_forall_not_mem.2 fun k hk => ?_
  obtain ⟨mem, apart⟩ := mem_endHolds (gs := s.holds) (s := s) hk
  exact apart k mem rfl

theorem clearHolds_quiet (s : State) : HoldsQuiet s s.clearHolds := by
  obtain ⟨nextHoldId, holdFlag, expiryFlag⟩ := endHolds_quiet s.holds s
  exact ⟨nextHoldId, holdFlag, expiryFlag⟩

theorem clearHolds_batch (s : State) : s.clearHolds.batch = s.batch := (clearHolds_foldl_holdFrame s.holds s).batch

/-- Where nothing is HELD nothing is PARKED: the PARKED slot of the least position would have nothing before it (R9). -/
theorem State.ParkingSound.not_parked {s : State} (h : s.ParkingSound)
    (held : ∀ u x, s.slot u = some x → x.stage ≠ .held) {u : Tag} {x : Transaction} (hx : s.slot u = some x) :
    x.stage ≠ .parked := by
  intro parked
  induction hp : x.position using Nat.strongRecOn generalizing u x with
  | ind n ih =>
    obtain ⟨v, y, hy, blocks, earlier, -⟩ := (blocked_iff _ _ _).1 (h.parked u x hx parked)
    rcases (blocks_iff y).1 blocks with parked | stage
    · exact ih y.position (hp ▸ earlier) hy parked rfl
    · exact held v y hy stage

/-- With an empty hold queue no slot is held, before or after (R49). -/
theorem State.PathSound.not_held {s : State} (h : s.PathSound) (empty : s.holds = []) {u : Tag} {x : Transaction}
    (hx : s.slot u = some x) : x.stage ≠ .held ∧ ∀ r, x.stage ≠ .heldResponse r := by
  have none : ∀ p, ¬ ∃ g ∈ s.holds, g.tag = u ∧ g.point = p := by simp [empty]
  exact ⟨fun held => none _ ((h.before u).2 ⟨x, hx, held⟩), fun r held => none _ ((h.after u).2 ⟨x, hx, r, held⟩)⟩

/-- After the second event nothing is held and nothing is PARKED (R72). -/
theorem clearHolds_stages {s : State} (sound : s.PathSound) (parking : s.ParkingSound) {u : Tag} {x : Transaction}
    (hx : s.clearHolds.slot u = some x) : x.stage ≠ .parked ∧ x.stage ≠ .held ∧ ∀ r, x.stage ≠ .heldResponse r := by
  have path := clearHolds_sound sound
  have empty := clearHolds_empties s
  exact ⟨(clearHolds_parking sound parking).not_parked (fun v y hy => (path.not_held empty hy).1) hx, path.not_held empty hx⟩

/-- Settles O49: each event is taken as it comes next; what the second leaves is what the invariants say of an empty hold
queue. -/
theorem clearUnitIsFiveEvents : Obligations.ClearUnitIsFiveEvents := by
  refine ⟨fun s b run => ?_, fun s b ready hb hc sound parking => ?_, fun s b ready hb hc => ?_, fun s b ready hb hc => ?_,
    fun s b ready hb hc => ?_⟩
  · have row : exec .clearUnit s = .next (s.takeCommand .clearUnit fun s => s.clearTrace.setClearing (some .holds)) :=
      event_of_ready run.1 _
    rw [row, takeCommand_of_runs run, setClearing_of_batch (s := s.clearTrace) (b := b) run.2.1]
    rfl
  · have batch : s.clearHolds.batch = some b := (clearHolds_batch s).trans hb
    have frame := clearHolds_foldl_holdFrame s.holds s
    have quiet := clearHolds_quiet s
    have row : exec .clearUnitHolds s = s.clearEvent .holds fun s => s.clearHolds.setClearing (some .matchTable) := rfl
    refine ⟨_, row.trans (clearEvent_of_next ready hb hc _), ?_⟩
    rw [setClearing_of_batch batch]
    exact ⟨clearHolds_empties s, rfl, rfl, quiet.nextHoldId, rfl, fun u x hx => clearHolds_stages sound parking hx,
      frame.issueList, frame.table, frame.store, frame.eventLatch, quiet.holdFlag, quiet.expiryFlag⟩
  · have batch : s.clearTable.batch = some b := hb
    have row : exec .clearUnitMatchTable s =
        s.clearEvent .matchTable fun s => s.clearTable.setClearing (some .overlay) := rfl
    refine ⟨_, row.trans (clearEvent_of_next ready hb hc _), ?_⟩
    rw [setClearing_of_batch batch]
    exact ⟨clearTable_get s, rfl⟩
  · have row : exec .clearUnitOverlay s =
        s.clearEvent .overlay fun s => State.setClearing (some .eventLatch) { s with store := [] } := rfl
    rw [row, clearEvent_of_next ready hb hc, setClearing_of_batch (s := { s with store := [] }) (b := b) hb]
  · have row : exec .clearUnitEventLatch s =
        s.clearEvent .eventLatch fun s => State.answer .clearUnit .ok [] { s with eventLatch := false } := rfl
    rw [row, clearEvent_of_next ready hb hc, answer_of_batch (s := { s with eventLatch := false }) (b := b) hb]

end Sys2Proof.Machine
end

-- ==== Unused ids ====
section
/-! O43: the id of a new hold or of a new injected access is the first, from the next id on, that no record has (R51, R103). -/

namespace Sys2Proof.Machine

/-- The search passes over used ids alone, and looks at no more than `n` further ones. -/
theorem firstUnused_eq_iterate (next : Byte → Byte) (used : List Byte) (n : Nat) (id : Byte) :
    ∃ k ≤ n, firstUnused next used n id = next^[k] id ∧ ∀ j < k, next^[j] id ∈ used := by
  induction n generalizing id with
  | zero => exact ⟨0, le_rfl, rfl, nofun⟩
  | succ n ih =>
    rw [firstUnused]
    split
    · next taken =>
      obtain ⟨k, hk, found, passed⟩ := ih (next id)
      refine ⟨k + 1, Nat.succ_le_succ hk, found, fun j hj => ?_⟩
      cases j with
      | zero => exact taken
      | succ j => exact passed j (Nat.lt_of_succ_lt_succ hj)
    · exact ⟨0, Nat.zero_le _, rfl, nofun⟩

/-- Ids that do not come round within `n` steps are met once each. -/
theorem iterate_injOn_of_apart {next : Byte → Byte} {n : Nat} (apart : ∀ d, 0 < d → d ≤ n → ∀ id, next^[d] id ≠ id)
    (id : Byte) : Set.InjOn (fun k => next^[k] id) {k | k ≤ n} := by
  have earlier : ∀ i j, i < j → j ≤ n → next^[j] id ≠ next^[i] id := by
    intro i j hij hj
    have split : next^[j] id = next^[j - i] (next^[i] id) := by
      rw [← Function.iterate_add_apply, Nat.sub_add_cancel hij.le]
    exact split ▸ apart (j - i) (by omega) (by omega) _
  intro i hi j hj e
  rcases Nat.lt_trichotomy i j with h | h | h
  · exact absurd e.symm (earlier i j h hj)
  · exact h
  · exact absurd e (earlier j i h hi)

/-- The hold ids come round after 256 steps (R51). -/
theorem nextHold_iterate_ne {d : Nat} (pos : 0 < d) (room : d ≤ 255) (id : Byte) : nextHold^[d] id ≠ id := by
  rw [nextHold_iterate]
  bv_omega

theorem nextAccess_255 : nextAccess 255 = 1 := rfl

theorem nextAccess_of_ne {i : Byte} (h : i ≠ 255) : nextAccess i = i + 1 := if_neg h

/-- The access ids do not come round within two steps (R103). -/
theorem nextAccess_iterate_ne {d : Nat} (pos : 0 < d) (room : d ≤ 2) (id : Byte) : nextAccess^[d] id ≠ id := by
  obtain rfl | rfl : d = 1 ∨ d = 2 := by omega
  · rw [Function.iterate_one]
    unfold nextAccess
    split <;> bv_omega
  · rw [Function.iterate_succ_apply, Function.iterate_one]
    by_cases last : id = 255
    · subst last
      decide
    · rw [nextAccess_of_ne last]
      unfold nextAccess
      split <;> bv_omega

/-- Settles O43: the search passes over used ids alone, and no id comes round within as many steps as there are records. -/
theorem newIdsAreTheFirstUnused : Obligations.NewIdsAreTheFirstUnused := by
  refine ⟨fun s room => ?_, fun s room start => ?_, nextAccess_255, fun i => nextAccess_of_ne⟩
  · have fresh : s.newHoldId ∉ s.holds.map (·.id) := firstUnused_not_mem (by simp)
      (iterate_injOn_of_apart (fun d pos hd => nextHold_iterate_ne pos (by omega)) _)
    obtain ⟨k, hk, found, passed⟩ := firstUnused_eq_iterate nextHold (s.holds.map (·.id)) s.holds.length s.nextHoldId
    simp only [nextHold_iterate, List.mem_map] at found passed
    exact ⟨k, hk.trans room, found, fun h hh e => fresh (List.mem_map.2 ⟨h, hh, e⟩), passed⟩
  · have fresh : s.newAccessId ∉ s.injected.map (·.id) := firstUnused_not_mem (by simp)
      (iterate_injOn_of_apart (fun d pos hd => nextAccess_iterate_ne pos (hd.trans room)) _)
    obtain ⟨k, hk, found, passed⟩ := firstUnused_eq_iterate nextAccess (s.injected.map (·.id)) s.injected.length s.nextAccessId
    change s.newAccessId = _ at found
    simp only [List.mem_map] at passed
    have unused : ∀ a ∈ s.injected, a.id ≠ s.newAccessId := fun a ha e => fresh (List.mem_map.2 ⟨a, ha, e⟩)
    obtain rfl | rfl | rfl : k = 0 ∨ k = 1 ∨ k = 2 := by omega
    · exact ⟨found ▸ start, unused, .inl found⟩
    · exact ⟨found ▸ nextAccess_ne_zero _, unused, .inr ⟨passed 0 (by omega), .inl found⟩⟩
    · exact ⟨found ▸ nextAccess_ne_zero _, unused, .inr ⟨passed 0 (by omega), .inr ⟨passed 1 (by omega), found⟩⟩⟩

end Sys2Proof.Machine
end

-- ==== Commands on holds ====
section
/-! O38, O40 and O41: how a hold ends when nothing unparks, and what AMEND and EXTEND do to its record (R57, R58, R60 to R68,
R164, R165). -/

namespace Sys2Proof.Machine

/-! ### Where the slot of an ending hold goes (R57) -/

theorem deliver_proceeds_before {s : State} {g : Hold} {x : Transaction} (hx : s.slot g.tag = some x) (hp : g.point = .before) :
    s.deliver true g = s.putSlot g.tag { x with
      request := { x.request with data := if g.kind = .write then g.data else x.request.data }
      stage := .waiting } := by
  simp [State.deliver, hx, hp]

theorem deliver_proceeds_after {s : State} {g : Hold} {x : Transaction} (hx : s.slot g.tag = some x) (hp : g.point = .after) :
    s.deliver true g = s.answerSlot g.tag x ⟨g.downstream.getD .done, g.data⟩ := by
  simp [State.deliver, hx, hp]

theorem deliver_fails {s : State} {g : Hold} {x : Transaction} (hx : s.slot g.tag = some x) :
    s.deliver false g = s.answerSlot g.tag x faultResponse := by
  simp [State.deliver, hx]

/-! ### Ends after which nothing unparks -/

/-- Nothing is there for the end of a hold to unpark: it is at point AFTER, or no slot is PARKED (R11, R57). -/
def State.unparksNothing (s : State) (g : Hold) : Prop := g.point = .after ∨ ∀ u y, s.slot u = some y → y.stage ≠ .parked

theorem unparkPass_of_none_parked {s : State} (quiet : ∀ u y, s.slot u = some y → y.stage ≠ .parked) (mayHold : Bool) :
    s.unparkPass mayHold = s := by
  have none : s.parkedTags = [] := by
    refine List.eq_nil_iff_forall_not_mem.2 fun u hu => ?_
    obtain ⟨y, hy, parked⟩ := (mem_parkedTags s u).1 hu
    exact quiet u y hy parked
  rw [State.unparkPass, none, List.foldl_nil]

/-- An ending hold parks nothing. -/
theorem deliver_none_parked {s : State} {g : Hold} {x : Transaction} (hx : s.slot g.tag = some x) (proceeds : Bool)
    (quiet : ∀ u y, s.slot u = some y → y.stage ≠ .parked) (u : Tag) (y : Transaction)
    (hy : (s.deliver proceeds g).slot u = some y) : y.stage ≠ .parked := by
  obtain ⟨others, z, hz, -, stage⟩ := slot_deliver hx proceeds
  by_cases hu : u = g.tag
  · subst hu
    obtain rfl := Option.some.inj (hz.symm.trans hy)
    rcases stage with ⟨r, hr⟩ | ⟨-, hw, -⟩
    · simp [hr]
    · simp [hw]
  · exact quiet u y ((others u hu).symm.trans hy)

/-- A hold that ends with nothing to unpark: its record is removed, its slot moves on, one HOLD-END record is sent, and an
expiry is posted (R57). -/
theorem endHold_of_unparksNothing {s : State} {g : Hold} {x : Transaction} (hx : s.slot g.tag = some x)
    (quiet : s.unparksNothing g) (mayHold proceeds expiry : Bool) (o : TraceOutcome) :
    s.endHold mayHold proceeds expiry o g =
      (((s.removeHold g.id).deliver proceeds g).append (g.endNote (some g.id) o)).postIf expiry .expiry g.id := by
  have hx' : (s.removeHold g.id).slot g.tag = some x := hx
  unfold State.endHold
  cases hp : g.point with
  | after => rfl
  | before =>
    have rest := quiet.resolve_left fun h => by rw [hp] at h; cases h
    change State.unparkPass mayHold _ = _
    refine unparkPass_of_none_parked (fun u y hy => ?_) mayHold
    exact deliver_none_parked hx' proceeds rest u y hy

theorem endHold_proceeds_after {s : State} {g : Hold} {x : Transaction} (hx : s.slot g.tag = some x) (hp : g.point = .after)
    (expiry : Bool) (o : TraceOutcome) :
    s.endHold true true expiry o g =
      (((s.removeHold g.id).answerSlot g.tag x ⟨g.downstream.getD .done, g.data⟩).append
        (g.endNote (some g.id) o)).postIf expiry .expiry g.id := by
  rw [endHold_of_unparksNothing hx (.inl hp), deliver_proceeds_after (s := s.removeHold g.id) hx hp]

theorem endHold_proceeds_before {s : State} {g : Hold} {x : Transaction} (hx : s.slot g.tag = some x) (hp : g.point = .before)
    (quiet : ∀ u y, s.slot u = some y → y.stage ≠ .parked) (expiry : Bool) (o : TraceOutcome) :
    s.endHold true true expiry o g =
      (((s.removeHold g.id).putSlot g.tag { x with
        request := { x.request with data := if g.kind = .write then g.data else x.request.data }
        stage := .waiting }).append (g.endNote (some g.id) o)).postIf expiry .expiry g.id := by
  rw [endHold_of_unparksNothing hx (.inr quiet), deliver_proceeds_before (s := s.removeHold g.id) hx hp]

theorem endHold_fails {s : State} {g : Hold} {x : Transaction} (hx : s.slot g.tag = some x) (quiet : s.unparksNothing g)
    (expiry : Bool) (o : TraceOutcome) :
    s.endHold true false expiry o g =
      (((s.removeHold g.id).answerSlot g.tag x faultResponse).append (g.endNote (some g.id) o)).postIf expiry .expiry g.id := by
  rw [endHold_of_unparksNothing hx quiet, deliver_fails (s := s.removeHold g.id) hx]

theorem exec_release {s : State} {b : Batch} {g : Hold} (run : s.runs b (.release g.id)) (find : s.findHold g.id = some g) :
    exec (.release g.id) s = .next ((s.endHold true true false (if g.amended then .amendedReleased else .released) g).answered
      b (.release g.id) .ok []) := exec_endHold (f := releaseHold) run find rfl

theorem exec_fail {s : State} {b : Batch} {g : Hold} (run : s.runs b (.fail g.id)) (find : s.findHold g.id = some g) :
    exec (.fail g.id) s = .next ((s.endHold true false false .failed g).answered b (.fail g.id) .ok []) :=
  exec_endHold (f := failHold) run find rfl

theorem exec_holdExpiry {s : State} {g : Hold} (live : s.porAsserted = false) (due : s.dueHold = some g) :
    exec .holdExpiry s = .next (s.expire g) := by
  rw [exec_of_dueEffect (c := .holdExpiry) rfl, dueEvent_of_live live, State.expireNext, due]

theorem expire_of_proceed {s : State} {g : Hold} (h : g.policy = .proceed) :
    s.expire g = s.endHold true true true .expiredProceeded g := by
  simp [State.expire, h]

theorem expire_of_fault {s : State} {g : Hold} (h : g.policy = .fault) :
    s.expire g = s.endHold true false true .expiredFaulted g := by
  simp [State.expire, h]

/-- Settles O38: each row ends the hold by `endHold`, which with nothing to unpark only moves the hold's own slot. -/
theorem holdEndsInItsOwnWay : Obligations.HoldEndsInItsOwnWay := by
  intro s g x find hx
  refine ⟨fun b run => ⟨fun hp => ?_, fun hp quiet => ?_⟩, fun b run quiet => ?_, fun live due policy quiet => ?_,
    fun live due policy hp => ?_⟩
  · rw [exec_release run find, endHold_proceeds_after hx hp]
    rfl
  · rw [exec_release run find, endHold_proceeds_before hx hp quiet]
    rfl
  · rw [exec_fail run find, endHold_fails hx quiet]
    rfl
  · rw [exec_holdExpiry live due, expire_of_fault policy, endHold_fails hx quiet]
    rfl
  · rw [exec_holdExpiry live due, expire_of_proceed policy, endHold_proceeds_after hx hp]
    rfl

/-! ### Commands that act on a record (R60) -/

theorem withHold_of_none {s : State} {id : Byte} (h : s.findHold id = none) (f : Hold → State → Reply) :
    withHold id f s = refuse .noHold s := by
  simp [withHold, h]

theorem withHold_of_some {s : State} {id : Byte} {g : Hold} (h : s.findHold id = some g) (f : Hold → State → Reply) :
    withHold id f s = f g s := by
  simp [withHold, h]

/-! ### AMEND (R63, R64) -/

/-- The lengths that AMEND takes (R63). -/
theorem mem_amendLengths {n : Nat} : n ∈ [1, 2, 4, 16] ↔ n = 1 ∨ n = 2 ∨ n = 4 ∨ n = 16 := by simp

theorem amendBody_of_badLength {len : Byte} (h : ¬ (len.toNat = 1 ∨ len.toNat = 2 ∨ len.toNat = 4 ∨ len.toNat = 16))
    (id : Byte) (data : List Byte) (s : State) : amendBody id len data s = refuse .badOperand s :=
  if_neg (mt mem_amendLengths.1 h)

theorem amendBody_of_length {len : Byte} (h : len.toNat = 1 ∨ len.toNat = 2 ∨ len.toNat = 4 ∨ len.toNat = 16)
    (id : Byte) (data : List Byte) (s : State) : amendBody id len data s = withHold id (amendRecord data len.toNat) s :=
  if_pos (mem_amendLengths.2 h)

theorem amendable_iff (g : Hold) :
    g.amendable = true ↔ (g.point = .before ∧ g.kind = .write) ∨ (g.point = .after ∧ g.kind ≠ .write) := by
  unfold Hold.amendable
  cases g.point <;> simp

theorem not_amendable_iff (g : Hold) :
    g.amendable = false ↔ (g.point = .before ∧ g.kind ≠ .write) ∨ (g.point = .after ∧ g.kind = .write) := by
  unfold Hold.amendable
  cases g.point <;> simp

theorem amendRecord_of_badKind {g : Hold} (h : g.amendable = false) (data : List Byte) (n : Nat) (s : State) :
    amendRecord data n g s = refuse .badKind s := if_pos h

theorem amendRecord_of_badLength {g : Hold} {n : Nat} (h : g.amendable = true) (hn : n ≠ g.size.bytes) (data : List Byte)
    (s : State) : amendRecord data n g s = refuse .badOperand s := by
  simp [amendRecord, h, hn]

theorem amendRecord_of_fits {g : Hold} {n : Nat} (h : g.amendable = true) (hn : n = g.size.bytes) (data : List Byte)
    (s : State) : amendRecord data n g s = done (s.amendHold data g) := by
  simp [amendRecord, h, hn]

theorem amendSlot_of_slot {s : State} {u : Tag} {x : Transaction} (hx : s.slot u = some x) (data : List Byte) :
    s.amendSlot u data = s.putSlot u { x with request := { x.request with data := data } } := by
  simp [State.amendSlot, hx]

/-- A BEFORE record is amended with its slot's write data (R64). -/
theorem amendHold_of_before {s : State} {g : Hold} {x : Transaction} (hp : g.point = .before) (hx : s.slot g.tag = some x)
    (data : List Byte) : s.amendHold data g =
      (s.updateHold { g with data := data, amended := true }).putSlot g.tag
        { x with request := { x.request with data := data } } := by
  have record : g.amendWith data = { g with data := data, amended := true } := by simp [Hold.amendWith, hp]
  have both : s.amendHold data g = (s.updateHold (g.amendWith data)).amendSlot g.tag data := by
    simp only [State.amendHold, hp]
  rw [both, record]
  exact amendSlot_of_slot (s := s.updateHold _) hx data

/-- An AFTER record is amended to a response that memory has done (R64). -/
theorem amendHold_of_after {s : State} {g : Hold} (hp : g.point = .after) (data : List Byte) :
    s.amendHold data g = s.updateHold { g with data := data, amended := true, downstream := some .done } := by
  simp only [State.amendHold, Hold.amendWith, hp]

/-- Settles O40: the checks of AMEND in their order, and `amendHold` at the two points. -/
theorem amendChecksAndReplacesData : Obligations.AmendChecksAndReplacesData := by
  intro s b id len data run
  have row : exec (.amend id len data) s = s.command (.amend id len data) (amendBody id len data) :=
    exec_of_commandBody rfl s
  rw [row]
  refine ⟨fun hl => command_refused run (amendBody_of_badLength hl id data s), fun hl => ?_⟩
  have body := amendBody_of_length hl id data s
  refine ⟨fun find => command_refused run (body.trans (withHold_of_none find _)), fun g find => ?_⟩
  replace body := body.trans (withHold_of_some find _)
  refine ⟨fun kind => command_refused run (body.trans (amendRecord_of_badKind ((not_amendable_iff g).2 kind) data _ s)),
    fun kind => ?_⟩
  have amendable := (amendable_iff g).2 kind
  refine ⟨fun size => command_refused run (body.trans (amendRecord_of_badLength amendable size data s)), fun size => ?_⟩
  replace body := body.trans (amendRecord_of_fits amendable size data s)
  refine ⟨fun hp x hx _ => ?_, fun hp => ?_⟩
  · rw [amendHold_of_before hp hx] at body
    exact command_done run body rfl
  · rw [amendHold_of_after hp] at body
    exact command_done run body rfl

/-! ### EXTEND (R66, R165) -/

theorem extendBody_of_badUnits {units : Half} (h : units.toNat = 0 ∨ 4095 < units.toNat) (id : Byte) (s : State) :
    extendBody id units s = refuse .badOperand s := if_neg (by omega)

theorem extendBody_of_units {units : Half} (low : 1 ≤ units.toNat) (high : units.toNat ≤ 4095) (id : Byte) (s : State) :
    extendBody id units s = withHold id (extendRecord units.toNat) s := if_pos ⟨low, high⟩

theorem extendRecord_of_limit {g : Hold} (h : g.extended = 8) (n : Nat) (s : State) :
    extendRecord n g s = refuse .extendLimit s := if_pos h

theorem extendRecord_of_lt {g : Hold} (h : g.extended < 8) (n : Nat) (s : State) :
    extendRecord n g s = ⟨s.updateHold (g.extendBy n), .ok,
      natBytes (g.extendBy n).remaining ++ [byteOf (g.extendBy n).extended]⟩ := if_neg h.ne

/-- Settles O41: the checks of EXTEND in their order, and the record with the units added. -/
theorem extendAddsUnits : Obligations.ExtendAddsUnits := by
  intro s b id units run
  have row : exec (.extend id units) s = s.command (.extend id units) (extendBody id units) := exec_of_commandBody rfl s
  rw [row]
  refine ⟨fun bad => command_refused run (extendBody_of_badUnits bad id s), fun low high => ?_⟩
  have body := extendBody_of_units low high id s
  refine ⟨fun find => command_refused run (body.trans (withHold_of_none find _)), fun g find => ?_⟩
  replace body := body.trans (withHold_of_some find _)
  refine ⟨fun limit => command_refused run (body.trans (extendRecord_of_limit limit _ s)), fun room => ?_⟩
  replace body := body.trans (extendRecord_of_lt room _ s)
  have batch : (extendBody id units s).state.batch = some b := by
    rw [body]
    exact run.2.1
  rw [command_of_runs run _ batch, body]
  rfl

end Sys2Proof.Machine
end

-- ==== Time and what it makes due ====
section
/-! O3 and O46: a tick and the steps it makes due, that completing them leaves nothing due, and that every other row acts on the
completed state (R67, R68, R116, R130, R175, R178; log entries 5 and 6). -/

namespace Sys2Proof.Machine

/-! ### The tick, the budget step and the end of the pulse -/

theorem countTick_of_not_due {s : State} (h : s.budgetDue = false) (bitSlot : Bool) :
    s.countTick bitSlot = { s with
      tickCount := s.tickCount + 1
      divider := if s.divider = 9 then 0 else s.divider + 1
      budgetDue := decide (s.divider = 9)
      pulse := s.pulse.map (· - 1)
      gap := if bitSlot then 1 else min (s.gap + 1) 2001 } := by
  simp [State.countTick, h, gapLimit]

theorem stepBudgets_of_due {s : State} (h : s.budgetDue = true) :
    s.stepBudgets = { s with
      budgetDue := false
      holds := s.holds.map fun g => { g with remaining := g.remaining - 1 } } := by
  simp [State.stepBudgets, h]

theorem endPulse_of_due {s : State} (h : s.pulse = some 0) : s.endPulse = { s with pulse := none } := by
  simp [State.endPulse, h]

theorem rqrstOut_of_due {s : State} (h : s.pulse = some 0) : s.rqrstOut = false := by
  simp [State.rqrstOut, State.pulseInProgress, h]

/-- Settles O46: a tick finds no budget step left due in a ready state; the due rows act on the state as it stands. -/
theorem tickAndItsDueSteps : Obligations.TickAndItsDueSteps := by
  refine ⟨fun s bitSlot ready => ?_, fun s live due => ?_, fun s live due => ⟨rqrstOut_of_due due, ?_⟩⟩
  · obtain ⟨-, -, budget, -, -⟩ := (ready_iff s).1 ready
    rw [exec_of_eventEffect (c := .tick bitSlot) rfl, event_of_ready ready, countTick_of_not_due budget]
  · rw [exec_of_dueEffect (c := .budgetStep) rfl, dueEvent_of_live live, stepBudgets_of_due due]
  · rw [exec_of_dueEffect (c := .pulseEnd) rfl, dueEvent_of_live live, endPulse_of_due due]

/-! ### How many expiries can follow one another

Each expiry takes a record away. Only a PARKED slot that unparks can add one, and it is then no longer PARKED, so records and
PARKED slots together count the expiries that can still come (R11, R57, R68). -/

/-- Every slot's record carries its tag (R7). -/
def State.Tagged (s : State) : Prop := ∀ t x, s.slot t = some x → x.request.tag = t

/-- The PARKED slots. -/
def State.parkedSlots (s : State) : Finset Tag := {t | s.isParked t = true}

/-- The hold records and the PARKED slots, counted together. -/
def State.expiryBound (s : State) : Nat := s.holds.length + s.parkedSlots.card

theorem mem_parkedSlots (s : State) (t : Tag) : t ∈ s.parkedSlots ↔ ∃ x, s.slot t = some x ∧ x.stage = .parked := by
  rw [State.parkedSlots, Finset.mem_filter_univ]
  unfold State.isParked
  cases s.slot t <;> simp

theorem expiryBound_le (s : State) : s.expiryBound ≤ s.holds.length + 8 :=
  Nat.add_le_add_left (Finset.card_le_univ _) _

/-- What is in a slot was there before with the same tag, and is PARKED only if it was. -/
def ParksNothing (s t : State) : Prop :=
  ∀ u y, t.slot u = some y →
    ∃ x, s.slot u = some x ∧ y.request.tag = x.request.tag ∧ (y.stage = .parked → x.stage = .parked)

theorem ParksNothing.tagged {s t : State} (h : ParksNothing s t) (tags : s.Tagged) : t.Tagged := by
  intro u y hy
  obtain ⟨x, hx, tag, -⟩ := h u y hy
  exact tag.trans (tags u x hx)

theorem ParksNothing.parkedSlots_subset {s t : State} (h : ParksNothing s t) : t.parkedSlots ⊆ s.parkedSlots := by
  intro u hu
  obtain ⟨y, hy, parked⟩ := (mem_parkedSlots t u).1 hu
  obtain ⟨x, hx, -, stage⟩ := h u y hy
  exact (mem_parkedSlots s u).2 ⟨x, hx, stage parked⟩

theorem Unparked.parksNothing {s t : State} (h : Unparked s t) : ParksNothing s t := by
  intro u y hy
  rcases h u with same | ⟨x, st, hx, parked, -, moved⟩
  · exact ⟨y, same ▸ hy, rfl, id⟩
  · obtain rfl := Option.some.inj (moved.symm.trans hy)
    exact ⟨x, hx, rfl, fun _ => parked⟩

/-- The slot of an ending hold leaves no other state for PARKED (R57). -/
theorem deliver_parksNothing (s : State) (proceeds : Bool) (g : Hold) : ParksNothing s (s.deliver proceeds g) := by
  intro u y hy
  cases hx : s.slot g.tag with
  | none =>
    rw [State.deliver, hx] at hy
    exact ⟨y, hy, rfl, id⟩
  | some x =>
    by_cases hu : u = g.tag
    · subst hu
      refine ⟨x, hx, ?_⟩
      cases proceeds with
      | true =>
        cases hp : g.point with
        | before =>
          rw [deliver_proceeds_before hx hp, slot_putSlot_self] at hy
          obtain rfl := Option.some.inj hy
          exact ⟨rfl, nofun⟩
        | after =>
          rw [deliver_proceeds_after hx hp, slot_answerSlot_self] at hy
          obtain rfl := Option.some.inj hy
          exact ⟨rfl, nofun⟩
      | false =>
        rw [deliver_fails hx, slot_answerSlot_self] at hy
        obtain rfl := Option.some.inj hy
        exact ⟨rfl, nofun⟩
    · exact ⟨y, ((slot_deliver hx proceeds).1 u hu).symm.trans hy, rfl, id⟩

theorem askHold_holds_length (s : State) (g : Hold) : (s.askHold g).holds.length ≤ s.holds.length + 1 := by
  rcases askHold_cases s g with ⟨-, -, created⟩ | ⟨-, same⟩
  · simp [created]
  · simp [same]

theorem carryOut_holds_length (mayHold : Bool) (x : Transaction) (s : State) :
    (s.carryOut mayHold x).holds.length ≤ s.holds.length + 1 := by
  unfold State.carryOut
  split
  · split
    · exact askHold_holds_length _ _
    · exact Nat.le_succ _
  · exact Nat.le_succ _

theorem unparkOne_holds_length (mayHold : Bool) (s : State) (t : Tag) :
    (s.unparkOne mayHold t).holds.length ≤ s.holds.length + 1 := by
  unfold State.unparkOne
  split
  · exact Nat.le_succ _
  · split
    · rw [(appendAll_logFrame _ _).holds]
      exact carryOut_holds_length _ _ _
    · exact Nat.le_succ _

/-- A slot that unparks may add a record, and is no longer PARKED (R11, R12). -/
theorem unparkOne_expiryBound {s : State} (tags : s.Tagged) (mayHold : Bool) (t : Tag) :
    (s.unparkOne mayHold t).expiryBound ≤ s.expiryBound := by
  have looked := lookedAt tags mayHold t
  have subset := (unparked_of_lookedAt looked).parksNothing.parkedSlots_subset
  cases looked with
  | left same _ => rw [same]
  | @unparked x st hx parked _ _ stage moved =>
    have was : t ∈ s.parkedSlots := (mem_parkedSlots s t).2 ⟨x, hx, parked⟩
    have gone : t ∉ (s.unparkOne mayHold t).parkedSlots := by
      rw [mem_parkedSlots, moved]
      rcases stage with rfl | rfl <;> simp
    have fewer := Finset.card_lt_card (Finset.ssubset_iff_subset_ne.2 ⟨subset, fun e => gone (e ▸ was)⟩)
    have added := unparkOne_holds_length mayHold s t
    unfold State.expiryBound
    omega

theorem unparkPass_expiryBound {s : State} (tags : s.Tagged) (mayHold : Bool) :
    (s.unparkPass mayHold).Tagged ∧ (s.unparkPass mayHold).expiryBound ≤ s.expiryBound := by
  unfold State.unparkPass
  generalize s.parkedTags = ts
  induction ts generalizing s with
  | nil => exact ⟨tags, le_rfl⟩
  | cons t ts ih =>
    have looked := (unparked_of_lookedAt (lookedAt tags mayHold t)).parksNothing.tagged tags
    exact ⟨(ih looked).1, (ih looked).2.trans (unparkOne_expiryBound tags mayHold t)⟩

theorem removeHold_holds_length {s : State} {g : Hold} (hg : g ∈ s.holds) :
    (s.removeHold g.id).holds.length < s.holds.length :=
  List.length_filter_lt_length_iff_exists.2 ⟨g, hg, by simp⟩

/-- The end of a hold takes its record away, and what it unparks adds none that was not counted (R57). -/
theorem endHold_expiryBound {s : State} (tags : s.Tagged) {g : Hold} (hg : g ∈ s.holds) (mayHold proceeds expiry : Bool)
    (o : TraceOutcome) :
    (s.endHold mayHold proceeds expiry o g).Tagged ∧ (s.endHold mayHold proceeds expiry o g).expiryBound < s.expiryBound := by
  have delivered := deliver_parksNothing (s.removeHold g.id) proceeds g
  have log := (append_logFrame ((s.removeHold g.id).deliver proceeds g) (g.endNote (some g.id) o)).trans
    (postIf_logFrame expiry .expiry g.id _)
  unfold State.endHold
  generalize ((((s.removeHold g.id).deliver proceeds g).append (g.endNote (some g.id) o)).postIf expiry .expiry g.id) = u
    at log ⊢
  have ended : ParksNothing s u := fun v y hy => delivered v y ((log.pathSame.slot v).symm.trans hy)
  have bound : u.expiryBound < s.expiryBound := by
    have removed := removeHold_holds_length hg
    have fewer := Finset.card_le_card ended.parkedSlots_subset
    unfold State.expiryBound
    rw [log.holds, deliver_holds]
    omega
  split
  · obtain ⟨tagged, pass⟩ := unparkPass_expiryBound (ended.tagged tags) mayHold
    exact ⟨tagged, pass.trans_lt bound⟩
  · exact ⟨ended.tagged tags, bound⟩

theorem expireNext_expiryBound {s : State} (tags : s.Tagged) {g : Hold} (due : s.dueHold = some g) :
    s.expireNext.Tagged ∧ s.expireNext.expiryBound < s.expiryBound := by
  have hg := mem_of_dueHold due
  have expires : s.expireNext = s.expire g := by rw [State.expireNext, due]
  rw [expires]
  cases policy : g.policy with
  | proceed => exact expire_of_proceed policy ▸ endHold_expiryBound tags hg _ _ _ _
  | fault => exact expire_of_fault policy ▸ endHold_expiryBound tags hg _ _ _ _

/-- With as many expiries to make as can still come, none is left due. -/
theorem expireUpTo_dueHold {n : Nat} {s : State} (tags : s.Tagged) (enough : s.expiryBound ≤ n) :
    (s.expireUpTo n).dueHold = none := by
  induction n generalizing s with
  | zero =>
    have empty : s.holds = [] := List.eq_nil_of_length_eq_zero (by unfold State.expiryBound at enough; omega)
    simp [State.expireUpTo, State.dueHold, empty]
  | succ n ih =>
    cases due : s.dueHold with
    | none => rw [State.expireUpTo, due, due]
    | some g =>
      obtain ⟨tagged, fewer⟩ := expireNext_expiryBound tags due
      rw [State.expireUpTo, due]
      exact ih tagged (Nat.le_of_lt_succ (fewer.trans_le enough))

theorem expireAll_dueHold {s : State} (tags : s.Tagged) : s.expireAll.dueHold = none :=
  expireUpTo_dueHold tags (expiryBound_le s)

theorem dueHold_eq_none_iff (s : State) : s.dueHold = none ↔ ∀ g ∈ s.holds, g.remaining ≠ 0 := by
  simp [State.dueHold]

/-! ### The gap limit -/

/-- The three steps of the gap limit, of which at most one acts (R116, R130). -/
def State.completeGap (s : State) : State := s.abortFrame.abandonResponse.abandonRound

theorem settle_eq (s : State) : s.settle = s.endPulse.stepBudgets.expireAll.completeGap := rfl

/-- What the gap limit does: nothing where it is not due; otherwise the receiver goes to IDLE, from RESPONDING with the effect
of a FORGET (R116, R122, R130). -/
theorem completeGap_cases (s : State) :
    (s.gapDue = false ∧ s.completeGap = s) ∨ s.completeGap = s.toReceiver .idle ∨ s.completeGap = s.endResponse := by
  unfold State.completeGap State.gapDue State.abortFrame
  cases passed : s.gapPassed with
  | false => exact .inl ⟨rfl, by simp [State.abandonResponse, State.abandonRound, passed]⟩
  | true =>
    cases receiving : s.receiver.isReceiving with
    | true => exact .inr (.inl (by simp [State.abandonResponse, State.abandonRound, Receiver.isResponding, Receiver.inRound]))
    | false =>
      cases responding : s.receiver.isResponding with
      | true =>
        exact .inr (.inr (by simp [State.abandonResponse, State.abandonRound, passed, responding, State.endResponse,
          Receiver.inRound]))
      | false =>
        cases round : s.receiver.inRound with
        | true => exact .inr (.inl (by simp [State.abandonResponse, State.abandonRound, passed, responding, round]))
        | false => exact .inl ⟨rfl, by simp [State.abandonResponse, State.abandonRound, responding, round]⟩

theorem gapDue_of_idle {s : State} (h : s.receiver = .idle) : s.gapDue = false := by
  simp [State.gapDue, h, Receiver.isReceiving, Receiver.isResponding, Receiver.inRound]

/-- The gap limit is no longer due, and it has made nothing else due. -/
theorem completeGap_ready {s : State} (pulse : s.pulse ≠ some 0) (budget : s.budgetDue = false)
    (expiries : ∀ g ∈ s.holds, g.remaining ≠ 0) (live : s.porAsserted = false) : s.completeGap.ready := by
  rcases completeGap_cases s with ⟨gap, same⟩ | idle | ended
  · exact same.symm ▸ (ready_iff s).2 ⟨live, pulse, budget, expiries, gap⟩
  · exact idle ▸ (ready_iff _).2 ⟨live, pulse, budget, expiries, gapDue_of_idle rfl⟩
  · exact ended ▸ (ready_iff _).2 ⟨live, pulse, budget, expiries, gapDue_of_idle rfl⟩

/-! ### Completing what is due -/

theorem endPulse_pulse_ne (s : State) : s.endPulse.pulse ≠ some 0 := by
  by_cases due : s.pulse = some 0
  · simp [State.endPulse, due]
  · simp [State.endPulse, due]

/-- After everything that is due has been completed nothing is left due. -/
theorem settle_ready {s : State} (tags : s.Tagged) (live : s.porAsserted = false) : s.settle.ready := by
  have frame := expireAll_holdFrame s.endPulse.stepBudgets
  rw [settle_eq]
  refine completeGap_ready ?_ frame.budgetDue ((dueHold_eq_none_iff _).1 (expireAll_dueHold tags)) (frame.porAsserted.trans live)
  rw [frame.pulse]
  exact endPulse_pulse_ne s

/-! ### Rows on the completed state -/

/-- With nothing left due an event acts as on the completed state. -/
theorem event_settle {s : State} (done : s.settle.settle = s.settle) (live : s.porAsserted = false) (f : State → State) :
    s.event f = s.settle.event f := by
  unfold State.event
  rw [(settle_settleFrame s).porAsserted, live, done]
  rfl

theorem requestArrival_settle {s : State} (done : s.settle.settle = s.settle) (live : s.porAsserted = false) (r : Request) :
    execRequestArrival r s = execRequestArrival r s.settle := by
  unfold execRequestArrival
  rw [(settle_settleFrame s).porAsserted, live, done]
  rfl

/-- The rows of `dueEffect` are the due steps (log entry 5). -/
theorem dueEffect_eq_none {c : Instr}
    (h : c ∉ [.budgetStep, .holdExpiry, .pulseEnd, .gapAbort, .responseGapAbandon, .roundGapAbandon, .porNAsserted]) :
    dueEffect c = none := by
  cases due : dueEffect c with
  | none => rfl
  | some f => cases c <;> cases due <;> exact absurd (by simp) h

/-- A row that is not itself a due step or a POR_N row acts as on the completed state (log entry 5). -/
theorem exec_settle {c : Instr} {s : State} (done : s.settle.settle = s.settle) (live : s.porAsserted = false)
    (due : dueEffect c = none) (asserted : c ≠ .porNAsserted) (released : ∀ l, c ≠ .porNReleased l)
    (returned : ∀ r, c ≠ .memoryReturnDuringPor r) : exec c s = exec c s.settle := by
  rcases hk : commandBody c with _ | ⟨k, body⟩
  · rcases he : eventEffect c with _ | f
    · cases c <;> cases hk <;> cases he <;> cases due
      · exact requestArrival_settle done live _
      · exact absurd rfl asserted
      · exact absurd rfl (released _)
      · exact absurd rfl (returned _)
    · rw [exec_of_eventEffect he, exec_of_eventEffect he, event_settle done live]
  · rw [exec_of_commandBody hk, exec_of_commandBody hk]
    exact event_settle done live _

/-- Settles O3: the expiries end as each takes a counted record away, and the gap limit leaves the receiver in IDLE; every
event and command begins with `settle`, so it acts as on the completed state. -/
theorem settlingLeavesNothingDue : Obligations.SettlingLeavesNothingDue := by
  refine ⟨fun s tags live => settle_ready tags live, fun s ready => settle_of_ready ready,
    fun c s done rows released returned live => ?_⟩
  exact exec_settle done live (dueEffect_eq_none rows) (fun e => rows (by simp [e])) released returned

end Sys2Proof.Machine
end

-- ==== The overlay store stays canonical ====
section
/-! O7: the overlay store is canonical and lists bytes 0-1023 alone. Three rows touch it: an arrival that an OVERLAY window
serves, WRITE-OVERLAY, and CLEAR-UNIT's event at the store. The first two write a run that ends within the store, the third
empties it. -/

namespace Sys2Proof.Machine

/-! ### What keeps the store sound -/

theorem State.StoreSound.of_store {s t : State} (h : s.StoreSound) (store : t.store = s.store) : t.StoreSound where
  canonical := by rw [store]; exact h.canonical
  inside := by rw [store]; exact h.inside

theorem storeSound_dependsOn : DependsOn [.store] State.StoreSound :=
  fun _ _ same h => h.of_store (same .store (by decide))

/-- An empty store lists nothing (R74, R84). -/
theorem storeSound_of_nil {s : State} (h : s.store = []) : s.StoreSound where
  canonical := by rw [h]; rfl
  inside := by rw [h]; rfl

/-- A run of bytes written within the store leaves it sound (R77, R81). -/
theorem State.StoreSound.writeRange {s t : State} (h : s.StoreSound) {a : Nat} {vs : List Byte} (room : a + vs.length ≤ 1024)
    (store : t.store = Memory.writeRange s.store a vs) : t.StoreSound where
  canonical := by rw [store]; exact Memory.writeRange_wf h.canonical a vs
  inside := by rw [store]; exact Memory.writeRange_inStore h.inside room

/-- A run cut to a length that has room has room itself. -/
theorem take_room {a n : Nat} (vs : List Byte) (room : a + n ≤ 1024) : a + (vs.take n).length ≤ 1024 :=
  (Nat.add_le_add_left (List.length_take_le n vs) a).trans room

/-! ### Arrivals -/

/-- An access is served where it fits in the store: a READ or FETCH leaves the store, a WRITE puts its data there (R76, R77). -/
theorem served_store {base limit : Word} {offset : Nat} {r : Request} {m m' : List Host.Cell} {resp : BusResponse}
    (h : serveOverlay base limit offset r m = .served resp m') :
    m' = m ∨ overlayByte base offset r.addr + r.size.bytes ≤ 1024 ∧
      m' = Memory.writeRange m (overlayByte base offset r.addr) (r.data.take r.size.bytes) := by
  unfold serveOverlay at h
  split at h
  · split at h
    · next room =>
      split at h <;> cases h
      · exact .inr ⟨room, rfl⟩
      · exact .inl rfl
    · cases h
  · cases h

theorem arrived_storeSound {s t : State} {r : Request} (h : s.StoreSound) (ha : Arrived s r t) : t.StoreSound := by
  cases ha with
  | wrong _ => exact h.of_store (appendAll_logFrame _ _).store
  | @answered resp store ns hs _ =>
    have kept : ((((s.judged r).putStore store).answerSlot r.tag (s.entrant r) resp).appendAll ns).store = store :=
      (appendAll_logFrame ns _).store
    obtain same | ⟨_, _, _, _, -, served⟩ := hs
    · exact h.of_store (kept.trans same)
    · obtain same | ⟨room, written⟩ := served_store served
      · exact h.of_store (kept.trans same)
      · exact h.writeRange (take_room r.data room) (kept.trans written)
  | entered ns => exact h.of_store ((enter_holdFrame _ _).trans (appendAll_logFrame ns _).toHoldFrame).store

/-! ### WRITE-OVERLAY and CLEAR-UNIT -/

theorem overlayRange_iff (start count : Byte) : overlayRange start count = true ↔
    1 ≤ count.toNat ∧ count.toNat ≤ 16 ∧ start.toNat + count.toNat ≤ 256 := by
  simp [overlayRange, and_assoc]

/-- The words that WRITE-OVERLAY names end at word 255, the store's last (R81). -/
theorem writeOverlayBody_storeSound {s : State} (h : s.StoreSound) (start count : Byte) (data : List Byte) :
    (writeOverlayBody start count data s).state.StoreSound := by
  unfold writeOverlayBody
  split
  · next range =>
    obtain ⟨-, -, words⟩ := (overlayRange_iff start count).1 range
    have room : 4 * start.toNat + 4 * count.toNat ≤ 1024 := by omega
    exact h.writeRange (take_room data room) rfl
  · exact h

/-- CLEAR-UNIT's event at the store empties it, when it comes next (R84, R171). -/
theorem clearOverlay_storeSound {s : State} (h : s.StoreSound) :
    (clearingEffect .overlay (fun s => State.setClearing (some .eventLatch) { s with store := [] }) s).StoreSound := by
  unfold clearingEffect
  split
  · exact storeSound_of_nil rfl
  · exact h

/-! ### Every row -/

theorem storeSound_kept : Kept [.store] State.StoreSound where
  depends := storeSound_dependsOn
  queue := by decide
  inReset _ _ _ := storeSound_of_nil rfl
  present _ _ h := h.of_store rfl
  arrive _ _ _ h _ ha := arrived_storeSound h ha
  due c f hf hm s h := by cases c <;> cases hf <;> exact absurd hm (by decide)
  event c f hf hm s h := by
    cases c <;> cases hf
    case clearUnitOverlay => exact clearOverlay_storeSound h
    all_goals exact absurd hm Bool.false_ne_true
  command c k body hk hm s h := by
    cases c <;> cases hk
    case writeOverlay start count data => exact writeOverlayBody_storeSound h start count data
    all_goals exact absurd hm Bool.false_ne_true

/-- Settles O7: an arrival, WRITE-OVERLAY and CLEAR-UNIT alone touch the store, and each leaves it sound. -/
theorem everyStepKeepsTheStoreCanonical : Obligations.EveryStepKeepsTheStoreCanonical :=
  fun _ _ h ht => storeSound_kept.step h ht

end Sys2Proof.Machine
end

-- ==== The overlay store's commands ====
section
/-! O35: the bytes that WRITE-OVERLAY writes, and the operands that the overlay store's commands refuse (R80, R81). -/

namespace Sys2Proof.Machine

theorem overlayRange_eq_false {start count : Byte}
    (h : ¬ (1 ≤ count.toNat ∧ count.toNat ≤ 16 ∧ start.toNat + count.toNat ≤ 256)) : overlayRange start count = false :=
  Bool.eq_false_iff.2 fun range => h ((overlayRange_iff start count).1 range)

/-- Words in range are written, with data of their own length (R81). -/
theorem writeOverlayBody_of_range {start count : Byte} {data : List Byte} (range : overlayRange start count = true)
    (len : data.length = 4 * count.toNat) (s : State) :
    writeOverlayBody start count data s = done (s.putStore (Memory.writeRange s.store (4 * start.toNat) data)) := by
  rw [writeOverlayBody, if_pos range, List.take_of_length_le (Nat.le_of_eq len)]
  rfl

theorem writeOverlayBody_of_not_range {start count : Byte} (range : overlayRange start count = false) (data : List Byte)
    (s : State) : writeOverlayBody start count data s = refuse .badOperand s := by
  rw [writeOverlayBody, range]
  rfl

theorem readOverlayBody_of_not_range {start count : Byte} (range : overlayRange start count = false) (s : State) :
    readOverlayBody start count s = refuse .badOperand s := by
  rw [readOverlayBody, range]
  rfl

/-- Settles O35: in range the command writes one run of bytes, which reads back and leaves every byte outside it; out of
range both commands are refused. -/
theorem writeOverlayWritesItsWordsOnly : Obligations.WriteOverlayWritesItsWordsOnly := by
  refine fun s b st n => ⟨fun data run => ⟨fun low high words len sound => ?_, fun out => ?_⟩, fun run out => ?_⟩
  · have range := (overlayRange_iff st n).2 ⟨low, high, words⟩
    refine ⟨_, command_done run (writeOverlayBody_of_range range len s) rfl, fun k hk => ?_, fun a ha => ?_⟩
    · exact Memory.read_writeRange sound.canonical _ (len ▸ hk)
    · exact Memory.read_writeRange_of_outside _ (len ▸ ha)
  · exact command_refused run (writeOverlayBody_of_not_range (overlayRange_eq_false out) data s)
  · exact command_refused run (readOverlayBody_of_not_range (overlayRange_eq_false out) s)

end Sys2Proof.Machine
end

-- ==== The trace log stays numbered ====
section
/-! O9: the log's sequence numbers run without a gap. The path's events, the ends of holds and the requester resets change the
log by sending records alone (`SendsRecords`), ACK-TRACE takes the oldest away, and TRACE-CONTROL and CLEAR-UNIT empty it. -/

namespace Sys2Proof.Machine

/-! ### Numbered logs -/

/-- The records of a log are numbered without a gap up to the next number (R88). -/
def NumberedTo (next : Half) (log : List TraceRecord) : Prop :=
  ∀ (k : Nat) (r : TraceRecord), log[k]? = some r → r.seq + BitVec.ofNat 16 (log.length - k) = next

theorem logNumbered_iff (s : State) : s.LogNumbered ↔ NumberedTo s.nextSeq s.log := Iff.rfl

theorem numberedTo_nil (next : Half) : NumberedTo next [] := fun _ _ hk => nomatch hk

/-- Without its oldest records a log stays numbered (R91, R96). -/
theorem NumberedTo.drop {next : Half} {log : List TraceRecord} (h : NumberedTo next log) (n : Nat) :
    NumberedTo next (log.drop n) := by
  intro k r hk
  rw [List.getElem?_drop] at hk
  rw [List.length_drop, Nat.sub_sub]
  exact h (n + k) r hk

/-- The newest record carries the next number, and the numbers of the older ones stand as they are (R88). -/
theorem NumberedTo.push {next : Half} {log : List TraceRecord} (h : NumberedTo next log) {r : TraceRecord}
    (number : r.seq = next) : NumberedTo (next + 1) (log ++ [r]) := by
  intro k q hk
  rw [List.length_append, List.length_singleton]
  rcases Nat.lt_or_ge k log.length with older | newest
  · rw [List.getElem?_append_left older] at hk
    rw [Nat.sub_add_comm (Nat.le_of_lt older), BitVec.ofNat_add, ← BitVec.add_assoc, h k q hk]
    rfl
  · rw [List.getElem?_append_right newest, List.getElem?_singleton] at hk
    split at hk
    · next last =>
      cases hk
      have place : log.length + 1 - k = 1 := by omega
      rw [place, number]
      rfl
    · cases hk

/-! ### The records of the trace unit -/

/-- A record is discarded, or it takes the next number, with or without the oldest record dropped for it (R88, R90, R91). -/
theorem append_logNumbered {s : State} (h : s.LogNumbered) (n : TraceNote) : (s.append n).LogNumbered := by
  rw [logNumbered_iff] at h ⊢
  rw [append_log, State.append_nextSeq]
  split
  · exact h
  · split
    · exact (h.drop 1).push rfl
    · exact h.push rfl

theorem appendAll_logNumbered {s : State} (h : s.LogNumbered) (ns : List TraceNote) : (s.appendAll ns).LogNumbered := by
  induction ns generalizing s with
  | nil => exact h
  | cons n ns ih => exact ih (append_logNumbered h n)

theorem logNumbered_dependsOn : DependsOn [.log] State.LogNumbered := by
  intro s t same h
  have log : Piece.log.Same s t := same .log (by decide)
  simp only [Piece.Same, Prod.mk.injEq] at log
  obtain ⟨records, nextSeq, -⟩ := log
  rw [logNumbered_iff, records, nextSeq]
  exact h

/-! ### What sends records alone -/

theorem LogSame.refl (s : State) : LogSame s s := ⟨rfl, rfl, rfl, rfl⟩

theorem LogSame.trans {s t u : State} (h : LogSame s t) (k : LogSame t u) : LogSame s u :=
  ⟨k.log.trans h.log, k.nextSeq.trans h.nextSeq, k.tickCount.trans h.tickCount, k.traceMode.trans h.traceMode⟩

/-- The records of an event leave the same trace unit of the same trace unit (R94). -/
theorem LogSame.sent {s t : State} (h : LogSame s t) (ns : List TraceNote) : LogSame (s.appendAll ns) (t.appendAll ns) := by
  induction ns generalizing s t with
  | nil => exact h
  | cons n ns ih => exact ih (h.append n)

/-- The trace unit of `t` is that of `s` after some records sent to it. -/
def SendsRecords (s t : State) : Prop := ∃ ns : List TraceNote, LogSame (s.appendAll ns) t

namespace SendsRecords

variable {s t u : State}

theorem refl (s : State) : SendsRecords s s := ⟨[], .refl s⟩

theorem trans (h : SendsRecords s t) (k : SendsRecords t u) : SendsRecords s u := by
  obtain ⟨ns, hn⟩ := h
  obtain ⟨ms, hm⟩ := k
  exact ⟨ns ++ ms, by rw [appendAll_append]; exact (hn.sent ms).trans hm⟩

/-- A change outside the trace unit and the tick count sends nothing. -/
theorem of_keeps {ps : List Piece} (k : KeepsAllBut ps s t) (apart : ∀ p ∈ [Piece.log, .trace, .clock], p ∉ ps) :
    SendsRecords s t := ⟨[], k.logSame apart⟩

theorem keeping {ps : List Piece} (h : SendsRecords s t) (k : KeepsAllBut ps t u)
    (apart : ∀ p ∈ [Piece.log, .trace, .clock], p ∉ ps) : SendsRecords s u := h.trans (.of_keeps k apart)

theorem append (h : SendsRecords s t) (n : TraceNote) : SendsRecords s (t.append n) := h.trans ⟨[n], .refl _⟩

theorem appendAll (h : SendsRecords s t) (ns : List TraceNote) : SendsRecords s (t.appendAll ns) := h.trans ⟨ns, .refl _⟩

theorem logNumbered (h : SendsRecords s t) (numbered : s.LogNumbered) : t.LogNumbered := by
  obtain ⟨ns, same⟩ := h
  have sent := appendAll_logNumbered numbered ns
  rw [logNumbered_iff] at sent ⊢
  rwa [same.log, same.nextSeq]

end SendsRecords

/-! ### The path's events -/

theorem arrived_sends {s t : State} {r : Request} (ha : Arrived s r t) : SendsRecords s t := by
  have judged : SendsRecords s (s.judged r) := .of_keeps (judged_keeps r s) (by decide)
  cases ha with
  | wrong _ =>
    have accepted : SendsRecords s s.accepted := .of_keeps (accepted_keeps s) (by decide)
    exact (accepted.keeping (answerSlot_keeps _ _ _ _) (by decide)).appendAll _
  | @answered _ store ns _ _ =>
    have stored := judged.keeping (putStore_keeps store _) (by decide)
    exact (stored.keeping (answerSlot_keeps _ _ _ _) (by decide)).appendAll ns
  | entered ns => exact (judged.keeping (enter_keeps _ _) (by decide)).appendAll ns

theorem slotReturned_sends {s u : State} {t : Tag} {x : Transaction} {ret : MemReturn} (hr : SlotReturned s t x ret u) :
    SendsRecords s u := by
  have late : SendsRecords s (s.lateState x ret) := .of_keeps (lateState_keeps x ret s) (by decide)
  cases hr with
  | answered resp ns => exact (late.keeping (answerSlot_keeps _ _ _ _) (by decide)).appendAll ns
  | asked e b p ns => exact (late.keeping (holdResponse_keeps _ _ _ _ _) (by decide)).appendAll ns

theorem returned_sends {s t : State} {ret : MemReturn} (hr : Returned s ret t) : SendsRecords s t := by
  have taken : ∀ rest, SendsRecords s (s.putIssue rest) := fun rest => .of_keeps (putIssue_keeps rest s) (by decide)
  cases hr with
  | none _ => exact .refl s
  | injected _ => exact (taken _).keeping (updateAccess_keeps _ _ _) (by decide)
  | orphan _ _ _ => exact (taken _).keeping (freeSlot_keeps _ _) (by decide)
  | slot _ _ _ hu => exact (taken _).trans (slotReturned_sends hu)
  | stray _ _ => exact taken _

/-! ### The ends of holds -/

theorem deliver_keeps (proceeds : Bool) (g : Hold) (s : State) : KeepsAllBut [.slots] s (s.deliver proceeds g) := by
  unfold State.deliver
  split
  · exact .refl _ s
  · split
    · split
      · exact putSlot_keeps _ _ s
      · exact answerSlot_keeps _ _ _ s
    · exact answerSlot_keeps _ _ _ s

theorem postIf_keeps (c : Bool) (f : Flag) (d : Byte) (s : State) : KeepsAllBut [] s (s.postIf c f d) := by
  intro p; cases p <;> simp [Piece.Same]

theorem unparkOne_sends (mayHold : Bool) (t : Tag) (s : State) : SendsRecords s (s.unparkOne mayHold t) := by
  unfold State.unparkOne
  split
  · exact .refl s
  · split
    · exact (SendsRecords.of_keeps (carryOut_keeps mayHold _ s) (by decide)).appendAll _
    · exact .refl s

theorem unparkPass_sends (mayHold : Bool) (s : State) : SendsRecords s (s.unparkPass mayHold) := by
  unfold State.unparkPass
  generalize s.parkedTags = ts
  induction ts generalizing s with
  | nil => exact .refl s
  | cons t ts ih => exact (unparkOne_sends mayHold t s).trans (ih _)

/-- An end sends its HOLD-END record, and those of the holds that its unparking pass refuses (R57). -/
theorem endHold_sends (mayHold proceeds expiry : Bool) (o : TraceOutcome) (s : State) (g : Hold) :
    SendsRecords s (s.endHold mayHold proceeds expiry o g) := by
  have removed : SendsRecords s (s.removeHold g.id) := .of_keeps (removeHold_keeps g.id s) (by decide)
  have delivered := removed.keeping (deliver_keeps proceeds g _) (by decide)
  have ended := (delivered.append (g.endNote (some g.id) o)).keeping (postIf_keeps expiry .expiry g.id _) (by decide)
  unfold State.endHold
  split
  · exact ended.trans (unparkPass_sends mayHold _)
  · exact ended

theorem expireNext_sends (s : State) : SendsRecords s s.expireNext := by
  unfold State.expireNext State.expire
  split
  · exact .refl s
  · split <;> exact endHold_sends _ _ _ _ s _

theorem endHolds_sends (gs : List Hold) (s : State) :
    SendsRecords s (gs.foldl (State.endHold false true false .cleared) s) := by
  induction gs generalizing s with
  | nil => exact .refl s
  | cons g gs ih => exact (endHold_sends _ _ _ _ s g).trans (ih _)

theorem clearHolds_sends (s : State) : SendsRecords s s.clearHolds := by
  refine (endHolds_sends s.holds s).trans ⟨[], ?_⟩
  exact ⟨rfl, rfl, rfl, rfl⟩

/-- A command on a hold that sends records where the id is in the queue sends none where it is not (R60). -/
theorem withHold_sends {f : Hold → State → Reply} (id : Byte) (s : State) (hf : ∀ g, SendsRecords s (f g s).state) :
    SendsRecords s (withHold id f s).state := by
  unfold withHold
  split
  · exact .refl s
  · exact hf _

/-! ### Requester resets -/

theorem requesterReset_sends (s : State) : SendsRecords s s.requesterReset :=
  ⟨systemNote :: s.holds.map fun g => g.endNote (some g.id) .dropped, ⟨rfl, rfl, rfl, rfl⟩⟩

theorem assertRqrstIn_sends (s : State) : SendsRecords s s.assertRqrstIn := by
  unfold State.assertRqrstIn
  split
  · exact .refl s
  · exact (requesterReset_sends s).keeping (putLine_keeps true _) (by decide)

theorem startPulse_sends (s : State) : SendsRecords s s.startPulse := by
  unfold State.startPulse
  split
  · exact .of_keeps (putPulse_keeps _ s) (by decide)
  · exact (requesterReset_sends s).keeping (putPulse_keeps _ _) (by decide)

/-! ### The trace unit's commands and CLEAR-UNIT -/

/-- An empty log is numbered, whatever number comes next (R99, R171). -/
theorem logNumbered_of_nil {s : State} (h : s.log = []) : s.LogNumbered := by
  rw [logNumbered_iff, h]
  exact numberedTo_nil _

theorem ackTraceBody_logNumbered {s : State} (h : s.LogNumbered) (n : Half) : (ackTraceBody n s).state.LogNumbered := by
  unfold ackTraceBody
  split
  · exact NumberedTo.drop h n.toNat
  · exact h

theorem setTrace_logNumbered {s : State} (h : s.LogNumbered) (m : TraceMode) (threshold : Half) (flags : Byte) :
    (s.setTrace m threshold flags).LogNumbered := by
  rw [logNumbered_iff, State.setTrace_log, State.setTrace_nextSeq]
  split
  · exact numberedTo_nil _
  · exact h

theorem traceControlBody_logNumbered {s : State} (h : s.LogNumbered) (mode : Byte) (threshold : Half) (flags : Byte) :
    (traceControlBody mode threshold flags s).state.LogNumbered := by
  unfold traceControlBody
  split
  · exact h
  · split
    · exact setTrace_logNumbered h _ threshold flags
    · exact h

theorem startClear_logNumbered {s : State} (h : s.LogNumbered) :
    (s.takeCommand .clearUnit fun s => s.clearTrace.setClearing (some .holds)).LogNumbered := by
  rcases takeCommand_cases .clearUnit (fun s => s.clearTrace.setClearing (some .holds)) s with
    idle | ⟨b, st, -, -, refused⟩ | ⟨b, -, -, -, -, cleared⟩
  · rw [idle]; exact h
  · rw [refused]; exact logNumbered_dependsOn.of_keeps (answered_keeps b .clearUnit st [] s) (by decide) h
  · rw [cleared]; exact logNumbered_of_nil rfl

theorem clearingEffect_sends {f : State → State} {s : State} (hf : SendsRecords s (f s)) (c : ClearStep) :
    SendsRecords s (clearingEffect c f s) := by
  unfold clearingEffect
  split
  · exact hf
  · exact .refl s

/-! ### Every row -/

theorem logNumbered_kept : Kept [.log] State.LogNumbered where
  depends := logNumbered_dependsOn
  queue := by decide
  inReset _ _ _ := logNumbered_of_nil rfl
  present r s h := logNumbered_dependsOn.of_keeps (leavePresented_keeps r s) (by decide) h
  arrive _ _ _ h _ ha := (arrived_sends ha).logNumbered h
  due c f hf hm s h := by
    cases c <;> cases hf
    case holdExpiry => exact (expireNext_sends s).logNumbered h
    all_goals exact absurd hm (by decide)
  event c f hf hm s h := by
    cases c <;> cases hf
    case memoryReturn r => exact (returned_sends (returned s r)).logNumbered h
    case rqrstInAsserted => exact (assertRqrstIn_sends s).logNumbered h
    case clearUnit => exact startClear_logNumbered h
    case clearUnitHolds =>
      have cleared := (clearHolds_sends s).keeping (setClearing_keeps (some .matchTable) _) (by decide)
      exact (clearingEffect_sends cleared _).logNumbered h
    all_goals exact absurd hm Bool.false_ne_true
  command c k body hk hm s h := by
    cases c <;> cases hk
    case ackTrace n => exact ackTraceBody_logNumbered h n
    case traceControl m n f => exact traceControlBody_logNumbered h m n f
    case release id => exact (withHold_sends id s fun g => endHold_sends _ _ _ _ s g).logNumbered h
    case fail id => exact (withHold_sends id s fun g => endHold_sends _ _ _ _ s g).logNumbered h
    case resetRequester => exact (startPulse_sends s).logNumbered h
    all_goals exact absurd hm Bool.false_ne_true

/-- Settles O9: a row that touches the log sends records, each with the next number, or takes away its oldest records or all. -/
theorem everyStepKeepsTheLogNumbered : Obligations.EveryStepKeepsTheLogNumbered :=
  fun _ _ h ht => logNumbered_kept.step h ht

end Sys2Proof.Machine
end

-- ==== Trace records and the trace commands ====
section
/-! O36, O37: what a record sent to the trace unit changes, and what the trace commands do with their operands (R88 to R99,
R161). -/

namespace Sys2Proof.Machine

/-! ### A record with room, and a record to a full log -/

theorem logFull_of_lt {s : State} (h : s.log.length < 256) : s.logFull = false := by
  simp [State.logFull, h]

theorem logFull_of_ge {s : State} (h : 256 ≤ s.log.length) : s.logFull = true := by
  simp [State.logFull, h]

theorem logDiscards_of_lt {s : State} (h : s.log.length < 256) : s.logDiscards = false := by
  simp [State.logDiscards, logFull_of_lt h]

theorem logDiscards_of_stop {s : State} (h : 256 ≤ s.log.length) (mode : s.traceMode = .stop) : s.logDiscards = true := by
  simp [State.logDiscards, logFull_of_ge h, mode]

theorem logDiscards_of_wrap {s : State} (mode : s.traceMode = .wrap) : s.logDiscards = false := by
  simp [State.logDiscards, mode]

theorem meetsThreshold_of_lt {s : State} (h : s.log.length < 256) :
    s.meetsThreshold = true ↔ s.threshold ≠ 0 ∧ s.log.length + 1 = s.threshold := by
  simp [State.meetsThreshold, logFull_of_lt h]

/-- A full log's fill does not rise (R98). -/
theorem meetsThreshold_of_ge {s : State} (h : 256 ≤ s.log.length) : s.meetsThreshold = false := by
  simp [State.meetsThreshold, logFull_of_ge h]

/-- TRACE is posted with the fill that has reached the threshold (R98). -/
theorem append_trace_of_lt {s : State} (h : s.log.length < 256) (n : TraceNote) : (s.append n).attention.trace =
    if s.threshold ≠ 0 ∧ s.log.length + 1 = s.threshold then some (BitVec.ofNat 8 (min (s.log.length + 1) 255))
    else s.attention.trace := by
  simp only [State.append_attention, meetsThreshold_of_lt h]
  split
  · next reached =>
    rw [reached.2]
    rfl
  · rfl

/-- A record posts no flag but TRACE (R98). -/
theorem append_otherFlags (s : State) (n : TraceNote) : (s.append n).attention.join = s.attention.join ∧
    (s.append n).attention.hold = s.attention.hold ∧ (s.append n).attention.expiry = s.attention.expiry := by
  rw [State.append_attention]
  split <;> exact ⟨rfl, rfl, rfl⟩

/-- Settles O36: the log is full or has room, and a full log discards or wraps by the mode. -/
theorem traceAppendRules : Obligations.TraceAppendRules := by
  refine fun s n => ⟨fun room => ⟨?_, ?_, ?_, append_trace_of_lt room n⟩,
    fun full => ⟨?_, ?_, fun stop => ?_, fun wrap => ⟨?_, ?_⟩⟩, append_otherFlags s n⟩
  · simp [append_log, logDiscards_of_lt room, logFull_of_lt room]
  · simp [logDiscards_of_lt room]
  · simp [logFull_of_lt room]
  · simp [logFull_of_ge full]
  · simp [meetsThreshold_of_ge full]
  · simp [append_log, logDiscards_of_stop full stop]
  · simp [append_log, logDiscards_of_wrap wrap, logFull_of_ge full]
  · simp [logDiscards_of_wrap wrap]

/-! ### The trace commands -/

theorem readTraceBody_of_bad {n : Byte} (h : n.toNat = 0 ∨ 8 < n.toNat) (s : State) :
    readTraceBody n s = refuse .badOperand s := by
  rw [readTraceBody, if_neg (by omega)]

theorem ackTraceBody_of_held {s : State} {n : Half} (one : 1 ≤ n.toNat) (most : n.toNat ≤ 256)
    (held : n.toNat ≤ s.log.length) : ackTraceBody n s = done { s with log := s.log.drop n.toNat } := by
  rw [ackTraceBody, if_pos ⟨one, most, held⟩]

theorem ackTraceBody_of_bad {s : State} {n : Half} (h : n.toNat = 0 ∨ 256 < n.toNat ∨ s.log.length < n.toNat) :
    ackTraceBody n s = refuse .badOperand s := by
  rw [ackTraceBody, if_neg (by omega)]

/-- Mode bytes 0 and 1 name STOP and WRAP (R184). -/
theorem traceModeOf_of_le {m : Byte} (h : m.toNat ≤ 1) : traceModeOf m = some (if m = 0 then .stop else .wrap) := by
  unfold traceModeOf
  split
  · rfl
  · next nonzero =>
    have one : m = 1 := by bv_omega
    rw [if_pos one]

theorem traceModeOf_of_gt {m : Byte} (h : 1 < m.toNat) : traceModeOf m = none := by
  rw [traceModeOf, if_neg (by bv_omega), if_neg (by bv_omega)]

/-- No undefined flag bit of TRACE-CONTROL is set in a byte below 8 alone (R99, R161). -/
theorem definedFlags_iff (f : Byte) : f &&& 0xF8 = 0 ↔ f.toNat < 8 := by
  revert f
  decide

theorem traceControlBody_of_good {m : Byte} {th : Half} {f : Byte} (mode : m.toNat ≤ 1) (most : th.toNat ≤ 256)
    (flags : f.toNat < 8) (s : State) :
    traceControlBody m th f s = done (s.setTrace (if m = 0 then .stop else .wrap) th f) := by
  simp only [traceControlBody, traceModeOf_of_le mode, definedFlags_iff, most, flags, and_self, if_true]

theorem traceControlBody_of_bad {m : Byte} {th : Half} {f : Byte} (h : 1 < m.toNat ∨ 256 < th.toNat ∨ 8 ≤ f.toNat)
    (s : State) : traceControlBody m th f s = refuse .badOperand s := by
  rcases Nat.lt_or_ge 1 m.toNat with undefined | defined
  · simp only [traceControlBody, traceModeOf_of_gt undefined]
  · have out : ¬ (th.toNat ≤ 256 ∧ f.toNat < 8) := by omega
    simp only [traceControlBody, traceModeOf_of_le defined, definedFlags_iff, if_neg out]

/-- Settles O37: each command by the test of its operands. -/
theorem ackTraceAndTraceControl : Obligations.AckTraceAndTraceControl :=
  fun s _ =>
    ⟨fun _ run => ⟨fun one most held => command_done run (ackTraceBody_of_held one most held) rfl,
      fun bad => command_refused run (ackTraceBody_of_bad bad)⟩,
    fun _ _ _ run => ⟨fun mode most flags => command_done run (traceControlBody_of_good mode most flags s) rfl,
      fun bad => command_refused run (traceControlBody_of_bad bad s)⟩,
    fun _ run bad => command_refused run (readTraceBody_of_bad bad s)⟩

end Sys2Proof.Machine
end

-- ==== Injected accesses ====
section
/-! O44, O45: the checks that PEEK and POKE go through and the record they leave, and what ACCESS-RESULT answers about a
record (R103 to R106, R110, R168, R187). -/

namespace Sys2Proof.Machine

/-- A command that runs and keeps the batch, by what its body replies. -/
theorem command_replies {s t : State} {b : Batch} {c : Command} (run : s.runs b c) {body : State → Reply} {st : CmdStatus}
    {res : List Byte} (reply : body s = ⟨t, st, res⟩) (keeps : t.batch = s.batch) :
    s.command c body = .next (t.answered b c st res) := by
  have batch : (body s).state.batch = some b := by rw [reply]; exact keeps.trans run.2.1
  rw [command_of_runs run body batch, reply]

/-! ### Hazards (R105) -/

/-- An access conflicts with a slot's request: the same granule, and one of the two a write (R105). -/
theorem conflicts_request_iff (addr : Word) (w : Bool) (q : Request) :
    conflicts addr w q.addr (decide (q.kind = .write)) = true ↔
      q.addr.toNat / 64 = addr.toNat / 64 ∧ (q.kind = .write ∨ w = true) := by
  simp only [conflicts, Bool.and_eq_true, Bool.or_eq_true, decide_eq_true_eq]
  exact and_congr eq_comm or_comm

theorem hazard_iff (s : State) (addr : Word) (w : Bool) : s.hazard addr w = true ↔
    ∃ u y, s.slot u = some y ∧ (y.stage = .parked ∨ y.stage = .held) ∧
      y.request.addr.toNat / 64 = addr.toNat / 64 ∧ (y.request.kind = .write ∨ w = true) := by
  unfold State.hazard
  rw [List.any_eq_true]
  refine exists_congr fun u => ?_
  cases hu : s.slot u with
  | none => simp
  | some x => simp [mem_allTags, blocks_iff, conflicts_request_iff]

/-! ### The checks of PEEK and POKE, in their order (R104, R106) -/

theorem accessSize_of_bad {z : Byte} (h : ¬ (z.toNat = 1 ∨ z.toNat = 2 ∨ z.toNat = 4)) : accessSize z = none := by
  rw [accessSize, if_neg (by bv_omega), if_neg (by bv_omega), if_neg (by bv_omega)]

/-- The size operand is the number of bytes it names (R184). -/
theorem bytes_of_accessSize {z : Byte} {sz : Size} (h : accessSize z = some sz) : z.toNat = sz.bytes := by
  unfold accessSize at h
  split at h
  · next one => cases h; rw [one]; rfl
  · split at h
    · next two => cases h; rw [two]; rfl
    · split at h
      · next four => cases h; rw [four]; rfl
      · cases h

section Checks

variable {s : State} {k : AccessKind} {addr : Word} {z : Byte} {data : List Byte} {sz : Size}

theorem injectBody_of_badSize (h : accessSize z = none) : injectBody k addr z data s = refuse .badOperand s := by
  rw [injectBody, h]

theorem injectBody_of_misaligned (size : accessSize z = some sz) (h : addr.toNat % sz.bytes ≠ 0) :
    injectBody k addr z data s = refuse .badOperand s := by
  simp only [injectBody, size, if_pos h]

theorem injectBody_of_full (size : accessSize z = some sz) (aligned : addr.toNat % sz.bytes = 0)
    (h : 2 ≤ s.injected.length) : injectBody k addr z data s = refuse .queueFull s := by
  simp only [injectBody, size, if_neg (not_not_intro aligned), if_pos h]

theorem injectBody_of_hazard (size : accessSize z = some sz) (aligned : addr.toNat % sz.bytes = 0)
    (room : s.injected.length < 2) (h : s.hazard addr (decide (k = .poke)) = true) :
    injectBody k addr z data s = refuse .hazard s := by
  simp only [injectBody, size, if_neg (not_not_intro aligned), if_neg room.not_ge, if_pos h]

theorem injectBody_of_clear (size : accessSize z = some sz) (aligned : addr.toNat % sz.bytes = 0)
    (room : s.injected.length < 2) (h : s.hazard addr (decide (k = .poke)) = false) :
    injectBody k addr z data s = ⟨s.inject k addr sz data, .ok, [s.newAccessId]⟩ := by
  simp only [injectBody, size, if_neg (not_not_intro aligned), if_neg room.not_ge, h, Bool.false_eq_true, if_false]

end Checks

/-- PEEK's record has no data, whatever string is given (R106). -/
theorem injectBody_peek (addr : Word) (z : Byte) (data : List Byte) :
    injectBody .peek addr z data = injectBody .peek addr z [] := rfl

/-- PEEK and POKE run one body (R104). -/
theorem exec_injecting {addr : Word} {z : Byte} {data : List Byte} {k : AccessKind} {i : Instr} {c : Command}
    (row : (k = .peek ∧ i = .peek addr z ∧ c = .peek addr z) ∨ (k = .poke ∧ i = .poke addr z data ∧ c = .poke addr z data))
    (s : State) : exec i s = s.command c (injectBody k addr z data) := by
  obtain ⟨rfl, rfl, rfl⟩ | ⟨rfl, rfl, rfl⟩ := row
  · rw [injectBody_peek]
    exact exec_of_commandBody rfl s
  · exact exec_of_commandBody rfl s

/-- Settles O44: the four checks of `injectBody` in their order, and the record it queues. -/
theorem injectedAccessesAreCheckedAndQueued : Obligations.InjectedAccessesAreCheckedAndQueued := by
  refine ⟨hazard_iff, fun s b addr z data k i c row run => ?_⟩
  rw [exec_injecting row s]
  refine ⟨fun bad => command_refused run (injectBody_of_badSize (accessSize_of_bad bad)), fun sz size =>
    ⟨bytes_of_accessSize size, fun odd => command_refused run (injectBody_of_misaligned size odd), fun aligned =>
      ⟨fun full => command_refused run (injectBody_of_full size aligned full), fun room => ⟨fun hazard => ?_, fun clear => ?_⟩⟩⟩⟩
  · exact command_refused run (injectBody_of_hazard size aligned room hazard)
  · exact command_replies run (injectBody_of_clear size aligned room clear) rfl

/-! ### The access record image (R187) -/

theorem accessKind_bit (k : AccessKind) : (decide (k = .poke)).toNat = [AccessKind.peek, .poke].idxOf k := by cases k <;> rfl

theorem sizeCode_eq (z : Size) : sizeCode z = [Size.one, .two, .four, .line].idxOf z := by cases z <;> rfl

theorem accessState_code_of_finished {st : AccessState} (h : st = .done ∨ st = .faulted) :
    st.code = if st = .done then 2 else 3 := by
  rcases h with rfl | rfl <;> rfl

/-- A string that is cut reads as 0 from there on. -/
theorem byteAt_take (bs : List Byte) (n k : Nat) : byteAt (bs.take n) k = if k < n then byteAt bs k else 0 := by
  unfold byteAt
  rw [List.getD_eq_getElem?_getD, List.getD_eq_getElem?_getD, List.getElem?_take]
  split <;> rfl

/-- The image of an access record, field by field (R168, R187). -/
theorem image_of_access (a : Access) : AccessImageOf a a.image where
  length := by simp [Access.image, wordBytes, length_padTo]
  id := rfl
  kind finished := by
    have place : byteAt a.image 1 = (byteOf _).toNat := rfl
    have : [AccessKind.peek, .poke].idxOf a.kind ≤ 2 := List.idxOf_le_length
    have : [Size.one, .two, .four, .line].idxOf a.size ≤ 4 := List.idxOf_le_length
    rw [place, byteOf_toNat, bit_eq, accessKind_bit, sizeCode_eq, accessState_code_of_finished finished]
    split <;> omega
  addr := numberAt4_of_word (rest := a.image.drop 6) _ rfl
  data k hk := by
    have place : byteAt a.image (k + 6) = byteAt (padTo 4 (a.data.take a.size.bytes)) k := rfl
    rw [Nat.add_comm, place, byteAt_padTo hk, byteAt_take]

/-! ### ACCESS-RESULT (R110) -/

theorem accessResultBody_of_none {s : State} {id : Byte} (h : s.findAccess id = none) :
    accessResultBody id s = refuse .noAccess s := by
  rw [accessResultBody, h]

theorem accessResultBody_of_unfinished {s : State} {id : Byte} {a : Access} (find : s.findAccess id = some a)
    (h : a.state = .waiting ∨ a.state = .issued) : accessResultBody id s = refuse .notDone s := by
  rcases h with state | state <;> simp only [accessResultBody, find, state]

theorem accessResultBody_of_finished {s : State} {id : Byte} {a : Access} (find : s.findAccess id = some a)
    (h : a.state = .done ∨ a.state = .faulted) : accessResultBody id s = ⟨s.removeAccess id, .ok, a.image⟩ := by
  rcases h with state | state <;> simp only [accessResultBody, find, state]

/-- Settles O45: no record, one that is not finished, and a finished one with its image. -/
theorem accessResultCollectsFinishedRecords : Obligations.AccessResultCollectsFinishedRecords := by
  intro s b id run
  have row : exec (.accessResult id) s = s.command (.accessResult id) (accessResultBody id) := exec_of_commandBody rfl s
  rw [row]
  refine ⟨fun find => command_refused run (accessResultBody_of_none find), fun a find =>
    ⟨fun unfinished => command_refused run (accessResultBody_of_unfinished find unfinished), fun finished =>
      ⟨?_, image_of_access a⟩⟩⟩
  exact command_replies run (accessResultBody_of_finished find finished) rfl

end Sys2Proof.Machine
end

-- ==== The check byte ====
section
/-! O54: the CRC-8 register of the check byte, and the strings that it covers (R114, R115, R121). -/

namespace Sys2Proof.Machine

/-- A shift drops no information: only 0 becomes 0, as the bit that a dropped 1 puts in at the low end stays (R115). -/
theorem crcShift_eq_zero_iff (r : Byte) : crcShift r = 0 ↔ r = 0 := by
  constructor
  · intro h
    unfold crcShift at h
    split at h
    · have low := congrArg (fun x : Byte => x.getLsbD 0) h
      simp at low
    · next high =>
      refine BitVec.eq_of_getLsbD_eq fun i hi => ?_
      change r.getLsbD i = (0#8).getLsbD i
      rw [BitVec.getLsbD_zero]
      by_cases top : i = 7
      · subst top
        simpa [BitVec.msb_eq_getLsbD_last] using high
      · have shifted := congrArg (fun x : Byte => x.getLsbD (i + 1)) h
        rw [BitVec.getLsbD_eq_getElem hi]
        simpa [show i + 1 < 8 by omega] using shifted
  · rintro rfl
    rfl

theorem crcByte_eq_zero_iff (r b : Byte) : crcByte r b = 0 ↔ b = r := by
  unfold crcByte
  rw [crcShift_eq_zero_iff, crcShift_eq_zero_iff, crcShift_eq_zero_iff, crcShift_eq_zero_iff, crcShift_eq_zero_iff,
    crcShift_eq_zero_iff, crcShift_eq_zero_iff, crcShift_eq_zero_iff]
  exact BitVec.xor_eq_zero_iff.trans eq_comm

theorem crc8_append_singleton (bs : List Byte) (b : Byte) : crc8 (bs ++ [b]) = crcByte (crc8 bs) b := by
  rw [crc8, List.foldl_append]
  rfl

/-- Over a string and one byte more the register comes to 0 exactly when that byte is the string's check byte (R115). -/
theorem crc8_append_eq_zero_iff (bs : List Byte) (b : Byte) : crc8 (bs ++ [b]) = 0 ↔ b = crc8 bs := by
  rw [crc8_append_singleton, crcByte_eq_zero_iff]

/-- A shift as R115 writes it: left by one bit, then 0x2F combined in where the dropped bit was 1. -/
theorem crcShift_eq (r : Byte) : crcShift r = (r <<< 1) ^^^ (if r.getLsbD 7 then 0x2F else 0) := by
  have dropped : r.msb = r.getLsbD 7 := BitVec.msb_eq_getLsbD_last r
  rw [crcShift, dropped]
  split <;> simp

/-- A frame is good when its check byte is that of destination, control, length and payload (R114, R115). -/
theorem good_iff (f : Frame) : f.good = true ↔ f.check = crc8 f.covered := by
  rw [Frame.good, decide_eq_true_eq, crc8_append_eq_zero_iff]

/-- Settles O54: a shift turns only 0 into 0, so the register ends with 0 only where the last byte cancels it. -/
theorem checkByteIsTheCrcOfTheFrame : Obligations.CheckByteIsTheCrcOfTheFrame := by
  refine ⟨rfl, fun bs b => ?_, crc8_append_eq_zero_iff, good_iff, fun st p => rfl⟩
  rw [crc8_append_singleton, crcByte, ← funext crcShift_eq]
  rfl

end Sys2Proof.Machine
end

-- ==== What a frame calls for ====
section
/-! O55: what the unit does with a frame, by its check byte, its kind and its destination (R118, R119, R183). -/

namespace Sys2Proof.Machine

/-! ### The kinds of frames (R183) -/

/-- The code of a frame kind in bits 2-0 of the control byte (R183). -/
def frameKindCode : FrameKind → Byte
  | .command => 1
  | .readback => 2
  | .enum => 3
  | .poll => 4

/-- The kinds by their codes, with the continue-on-error flag at either value (R183). -/
theorem frameKind_eq_some_iff (c : Byte) (k : FrameKind) :
    frameKind c = some k ↔ c = frameKindCode k ∨ c = frameKindCode k + 0x80 := by
  revert c
  cases k <;> decide

/-! ### The table of R119, a row of frame kinds at a time -/

section Table

variable {s : State} {f : Frame}

theorem frameAction_of_bad (bad : f.good = false) :
    s.frameAction f = if s.linkAddress = some f.dest then .reject else .nothing := if_pos bad

theorem frameAction_of_command (good : f.good = true) (kind : frameKind f.control = some .command) :
    s.frameAction f = if s.isAddressee f.dest then .command else if s.inGroup f.dest then .group else .nothing := by
  simp only [State.frameAction, good, Bool.true_eq_false, if_false, kind]

theorem frameAction_of_readback (good : f.good = true) (kind : frameKind f.control = some .readback) :
    s.frameAction f = if s.isAddressee f.dest then .readback else .nothing := by
  simp only [State.frameAction, good, Bool.true_eq_false, if_false, kind]

theorem frameAction_of_undefined (good : f.good = true) (kind : frameKind f.control = none) : s.frameAction f = .nothing := by
  simp only [State.frameAction, good, Bool.true_eq_false, if_false, kind]

/-- A good frame of the other two kinds opens a round or does nothing (R119). -/
theorem frameAction_of_roundKind (good : f.good = true)
    (kind : frameKind f.control = some .enum ∨ frameKind f.control = some .poll) :
    s.frameAction f = (roundOf f).elim .nothing .round := by
  cases opened : roundOf f <;> rcases kind with kind | kind <;>
    simp only [State.frameAction, good, Bool.true_eq_false, if_false, kind, opened, Option.elim]

theorem isAddressee_iff (s : State) (d : Byte) :
    s.isAddressee d = true ↔ 1 ≤ d.toNat ∧ d.toNat ≤ 15 ∧ s.linkAddress = some d := by
  simp [State.isAddressee, and_assoc]

theorem inGroup_iff (s : State) (d : Byte) :
    s.inGroup d = true ↔ d = 0 ∨ 16 ≤ d.toNat ∧ d.toNat ≤ 23 ∧ s.groupAddress = some d := by
  simp [State.inGroup, and_assoc]

theorem not_isAddressee {d : Byte} (h : d.toNat = 0 ∨ 15 < d.toNat) : ¬ s.isAddressee d = true := by
  rw [isAddressee_iff]
  omega

theorem isAddressee_of_link {d : Byte} (low : 1 ≤ d.toNat) (high : d.toNat ≤ 15) :
    s.isAddressee d = true ↔ s.linkAddress = some d := by
  rw [isAddressee_iff]
  exact ⟨fun h => h.2.2, fun h => ⟨low, high, h⟩⟩

theorem not_inGroup_of_link {d : Byte} (low : 1 ≤ d.toNat) (high : d.toNat ≤ 15) : ¬ s.inGroup d = true := by
  rw [inGroup_iff]
  rintro (rfl | h)
  · exact absurd low (by decide)
  · omega

theorem inGroup_of_group {d : Byte} (low : 16 ≤ d.toNat) (high : d.toNat ≤ 23) :
    s.inGroup d = true ↔ s.groupAddress = some d := by
  rw [inGroup_iff]
  refine ⟨?_, fun h => .inr ⟨low, high, h⟩⟩
  rintro (rfl | h)
  · exact absurd low (by decide)
  · exact h.2.2

/-! ### Frames that call for a round (R119) -/

theorem roundOf_of_enum {a : Byte} (good : f.good = true) (kind : frameKind f.control = some .enum) (dest : f.dest = 0)
    (payload : f.payload = [a]) : roundOf f = some (.enum a) := by
  simp only [roundOf, good, dest, and_self, if_true, kind, payload]

theorem roundOf_of_poll (good : f.good = true) (kind : frameKind f.control = some .poll) (dest : f.dest = 0)
    (payload : f.payload = []) : roundOf f = some .poll := by
  simp only [roundOf, good, dest, and_self, if_true, kind, payload]

theorem roundOf_of_not_broadcast (dest : f.dest ≠ 0) : roundOf f = none := if_neg fun h => dest h.2

theorem roundOf_of_bad_enum (kind : frameKind f.control = some .enum) (h : f.dest ≠ 0 ∨ f.payload.length ≠ 1) :
    roundOf f = none := by
  rcases h with dest | length
  · exact roundOf_of_not_broadcast dest
  · unfold roundOf
    split
    · rcases payload : f.payload with _ | ⟨a, _ | ⟨b, rest⟩⟩ <;> simp_all
    · rfl

theorem roundOf_of_bad_poll (kind : frameKind f.control = some .poll) (h : f.dest ≠ 0 ∨ f.payload ≠ []) :
    roundOf f = none := by
  rcases h with dest | length
  · exact roundOf_of_not_broadcast dest
  · unfold roundOf
    split
    · rcases payload : f.payload with _ | ⟨a, rest⟩ <;> simp_all
    · rfl

/-- A unit acts on a COMMAND frame as its addressee only where the frame carries its link address (R119). -/
theorem linkAddress_of_command (h : s.frameAction f = .command) : s.linkAddress = some f.dest := by
  cases good : f.good with
  | false =>
    rw [frameAction_of_bad good] at h
    split at h <;> cases h
  | true =>
    rcases kind : frameKind f.control with _ | _ | _ | _ | _
    case none => rw [frameAction_of_undefined good kind] at h; cases h
    case command =>
      rw [frameAction_of_command good kind] at h
      split at h
      · next addressee => exact ((isAddressee_iff s f.dest).1 addressee).2.2
      · split at h <;> cases h
    case readback =>
      rw [frameAction_of_readback good kind] at h
      split at h <;> cases h
    case enum =>
      rw [frameAction_of_roundKind good (.inl kind)] at h
      generalize roundOf f = opened at h
      cases opened <;> cases h
    case poll =>
      rw [frameAction_of_roundKind good (.inr kind)] at h
      generalize roundOf f = opened at h
      cases opened <;> cases h

end Table

/-- Settles O55: the table of R119, a kind and a range of destinations at a time. -/
theorem frameActionFollowsTheTable : Obligations.FrameActionFollowsTheTable := by
  intro s f
  refine ⟨fun bad link => by rw [frameAction_of_bad bad, if_pos link],
    fun bad link => by rw [frameAction_of_bad bad, if_neg link], fun good => ?_,
    fun c => ⟨frameKind_eq_some_iff c .command, frameKind_eq_some_iff c .readback, frameKind_eq_some_iff c .enum,
      frameKind_eq_some_iff c .poll⟩⟩
  refine ⟨fun kind low high => ?_, fun kind low high => ?_, fun kind dest => ?_, fun kind high => ?_, fun kind low high => ?_,
    fun kind dest => ?_, fun a kind dest payload => ?_, fun kind h => ?_, fun kind dest payload => ?_, fun kind h => ?_,
    fun kind => frameAction_of_undefined good kind⟩
  · simp only [frameAction_of_command good kind, isAddressee_of_link low high, not_inGroup_of_link low high]
    rfl
  · simp only [frameAction_of_command good kind, not_isAddressee (s := s) (.inr (show 15 < f.dest.toNat by omega)),
      inGroup_of_group low high]
    rfl
  · rw [frameAction_of_command good kind, if_neg (not_isAddressee (.inl (by rw [dest]; rfl))),
      if_pos ((inGroup_iff s _).2 (.inl dest))]
  · have outside : ¬ s.inGroup f.dest = true := by
      rw [inGroup_iff]
      rintro (dest | group)
      · rw [dest] at high
        exact absurd high (by decide)
      · omega
    rw [frameAction_of_command good kind, if_neg (not_isAddressee (.inr (by omega))), if_neg outside]
  · simp only [frameAction_of_readback good kind, isAddressee_of_link low high]
  · have outside : f.dest.toNat = 0 ∨ 15 < f.dest.toNat := dest.imp (fun h => by rw [h]; rfl) fun h => by omega
    rw [frameAction_of_readback good kind, if_neg (not_isAddressee outside)]
  · rw [frameAction_of_roundKind good (.inl kind), roundOf_of_enum good kind dest payload]
    rfl
  · rw [frameAction_of_roundKind good (.inl kind), roundOf_of_bad_enum kind h]
    rfl
  · rw [frameAction_of_roundKind good (.inr kind), roundOf_of_poll good kind dest payload]
    rfl
  · rw [frameAction_of_roundKind good (.inr kind), roundOf_of_bad_poll kind h]
    rfl

end Sys2Proof.Machine
end

-- ==== The link state ====
section
/-! What the link interface and the executor hold, and which rows move it. `State.linkView` is that part of the state, but for
the mark that a post leaves on the copy of a flag (R142); `LinkKept.step` is how an invariant of it is proved. -/

namespace Sys2Proof.Machine

/-- The receiver without the mark that a post leaves on a copied flag (R142). -/
def Receiver.unmarked : Receiver → Receiver
  | .round (.poll f d _) => .round (.poll f d false)
  | r => r

/-- The link interface's and the executor's own state, but for the mark that a post leaves (R113, R124, R127, R135). -/
structure LinkView where
  linkAddress : Option Byte
  groupAddress : Option Byte
  kept : Option Response
  forgetPending : Bool
  batch : Option Batch
  receiver : Receiver

/-- That part of a state. -/
def State.linkView (s : State) : LinkView :=
  ⟨s.linkAddress, s.groupAddress, s.kept, s.forgetPending, s.batch, s.receiver.unmarked⟩

@[simp] theorem notePost_unmarked (f : Flag) (r : Receiver) : (r.notePost f).unmarked = r.unmarked := by
  rcases r with _ | _ | _ | _ | _ | _ | p
  case round => cases p <;> rfl
  all_goals rfl

/-- The mark makes a difference between copies of a flag alone. -/
theorem unmarked_eq_iff {q : Receiver} (hq : ∀ f d again, q ≠ .round (.poll f d again)) (r : Receiver) :
    r.unmarked = q ↔ r = q := by
  rcases r with _ | _ | _ | _ | _ | _ | (a | ⟨f, d, again⟩)
  case round.poll => exact iff_of_false (hq f d false).symm (hq f d again).symm
  all_goals rfl

theorem unmarked_isResponding (r : Receiver) : r.unmarked.isResponding = r.isResponding := by
  rcases r with _ | _ | _ | _ | _ | _ | (_ | _) <;> rfl

theorem unmarked_in_round_iff (r : Receiver) : (∃ p, r.unmarked = .round p) ↔ ∃ p, r = .round p := by
  rcases r with _ | _ | _ | _ | _ | _ | (_ | _) <;> simp [Receiver.unmarked]

/-- What the link's state says of the receiver. -/
theorem receiver_eq_iff_of_view {s t : State} (e : t.linkView = s.linkView) {q : Receiver}
    (hq : ∀ f d again, q ≠ .round (.poll f d again)) : t.receiver = q ↔ s.receiver = q := by
  have same : t.receiver.unmarked = s.receiver.unmarked := congrArg LinkView.receiver e
  rw [← unmarked_eq_iff hq, same, unmarked_eq_iff hq]

theorem isResponding_of_view {s t : State} (e : t.linkView = s.linkView) :
    t.receiver.isResponding = s.receiver.isResponding := by
  have same : t.receiver.unmarked = s.receiver.unmarked := congrArg LinkView.receiver e
  rw [← unmarked_isResponding, same, unmarked_isResponding]

theorem in_round_iff_of_view {s t : State} (e : t.linkView = s.linkView) :
    (∃ p, t.receiver = .round p) ↔ ∃ p, s.receiver = .round p := by
  have same : t.receiver.unmarked = s.receiver.unmarked := congrArg LinkView.receiver e
  rw [← unmarked_in_round_iff, same, unmarked_in_round_iff]

/-! ### Records, posts, slots and holds -/

@[simp] theorem putSlot_linkView (t : Tag) (x : Transaction) (s : State) : (s.putSlot t x).linkView = s.linkView := rfl

@[simp] theorem answerSlot_linkView (t : Tag) (x : Transaction) (r : BusResponse) (s : State) :
    (s.answerSlot t x r).linkView = s.linkView := rfl

@[simp] theorem removeHold_linkView (id : Byte) (s : State) : (s.removeHold id).linkView = s.linkView := rfl

@[simp] theorem postIf_linkView (c : Bool) (f : Flag) (d : Byte) (s : State) : (s.postIf c f d).linkView = s.linkView := by
  simp only [State.linkView, State.postIf_receiver, State.postIf_linkAddress, State.postIf_groupAddress, State.postIf_kept,
    State.postIf_forgetPending, State.postIf_batch]
  split <;> simp

@[simp] theorem append_linkView (s : State) (n : TraceNote) : (s.append n).linkView = s.linkView := by
  have frame := append_logFrame s n
  simp only [State.linkView, frame.linkAddress, frame.groupAddress, frame.kept, frame.forgetPending, frame.batch,
    State.append_receiver]
  split <;> simp

@[simp] theorem appendAll_linkView (ns : List TraceNote) (s : State) : (s.appendAll ns).linkView = s.linkView := by
  induction ns generalizing s with
  | nil => rfl
  | cons n ns ih => simp [ih]

@[simp] theorem askHold_linkView (h : Hold) (s : State) : (s.askHold h).linkView = s.linkView := by
  unfold State.askHold
  split
  · exact postIf_linkView _ _ _ _
  all_goals rfl

@[simp] theorem carryOut_linkView (mayHold : Bool) (x : Transaction) (s : State) :
    (s.carryOut mayHold x).linkView = s.linkView := by
  unfold State.carryOut
  split
  · split <;> simp
  · simp

@[simp] theorem unparkOne_linkView (mayHold : Bool) (s : State) (t : Tag) : (s.unparkOne mayHold t).linkView = s.linkView := by
  unfold State.unparkOne
  split
  · rfl
  · split <;> simp

@[simp] theorem unparkPass_linkView (mayHold : Bool) (s : State) : (s.unparkPass mayHold).linkView = s.linkView := by
  unfold State.unparkPass
  generalize s.parkedTags = ts
  induction ts generalizing s with
  | nil => rfl
  | cons t ts ih => simp [ih]

@[simp] theorem deliver_linkView (proceeds : Bool) (h : Hold) (s : State) : (s.deliver proceeds h).linkView = s.linkView := by
  unfold State.deliver
  split
  · rfl
  · split
    · split <;> rfl
    · rfl

@[simp] theorem endHold_linkView (mayHold proceeds expiry : Bool) (o : TraceOutcome) (s : State) (h : Hold) :
    (s.endHold mayHold proceeds expiry o h).linkView = s.linkView := by
  unfold State.endHold
  split <;> simp

@[simp] theorem expireNext_linkView (s : State) : s.expireNext.linkView = s.linkView := by
  unfold State.expireNext State.expire
  split
  · rfl
  · split <;> simp

theorem clearHolds_linkView (s : State) : s.clearHolds.linkView = s.linkView := by
  have ended : ∀ (hs : List Hold) (u : State),
      (hs.foldl (State.endHold false true false .cleared) u).linkView = u.linkView := by
    intro hs
    induction hs with
    | nil => exact fun _ => rfl
    | cons h hs ih => exact fun u => by simp [ih]
  exact ended s.holds s

@[simp] theorem requesterReset_linkView (s : State) : s.requesterReset.linkView = s.linkView := appendAll_linkView _ s

theorem startPulse_linkView (s : State) : s.startPulse.linkView = s.linkView := by
  unfold State.startPulse
  split
  · rfl
  · exact requesterReset_linkView s

/-! ### The path's events -/

@[simp] theorem judged_linkView (r : Request) (s : State) : (s.judged r).linkView = s.linkView := rfl

@[simp] theorem enter_linkView (x : Transaction) (s : State) : (s.enter x).linkView = s.linkView := by
  unfold State.enter
  split <;> simp

theorem arrived_linkView {s t : State} {r : Request} (h : Arrived s r t) : t.linkView = s.linkView := by
  cases h with
  | wrong _ => exact appendAll_linkView _ _
  | answered _ _ _ => exact appendAll_linkView _ _
  | entered _ _ => simp

theorem takeResponse_linkView (s : State) : s.takeResponse.linkView = s.linkView := by
  unfold State.takeResponse
  split <;> rfl

theorem granted_linkView {s t : State} (h : Granted s t) : t.linkView = s.linkView := by
  cases h <;> rfl

theorem slotReturned_linkView {s u : State} {t : Tag} {x : Transaction} {ret : MemReturn} (h : SlotReturned s t x ret u) :
    u.linkView = s.linkView := by
  have late : (s.lateState x ret).linkView = s.linkView := by
    unfold State.lateState
    split <;> rfl
  cases h with
  | answered resp ns => simp [late]
  | asked e b p ns =>
    unfold State.holdResponse
    split <;> simp [late]

theorem returned_linkView {s t : State} {ret : MemReturn} (h : Returned s ret t) : t.linkView = s.linkView := by
  cases h with
  | slot _ _ _ hu => exact (slotReturned_linkView hu).trans rfl
  | _ => rfl

/-! ### The rows that move the link's state -/

/-- The rows, commands apart, that act on the link interface or the batch, and the two commands that do (R113 to R137,
R171). -/
def movesLink : Instr → Bool
  | .frameStart | .gapAbort | .responseGapAbandon | .roundGapAbandon | .overlengthFrame _ _ _ | .badCheckFrame _
  | .commandFrame _ | .groupCommandFrame _ | .readbackFrame _ | .enumFrame _ | .pollFrame _ | .frameNotActedOn _
  | .deferredFrameAction | .batchEnd | .responseSent | .roundStart | .enumComplete | .pollComplete | .arbitrationLoss _
  | .clearUnit | .clearUnitHolds | .clearUnitMatchTable | .clearUnitOverlay | .clearUnitEventLatch | .setGroup _
  | .forget => true
  | _ => false

theorem dueEffect_linkView {c : Instr} {f : State → State} (hf : dueEffect c = some f) (hc : movesLink c = false) (s : State) :
    (f s).linkView = s.linkView := by
  cases c <;> cases hf
  case budgetStep => rfl
  case holdExpiry => exact expireNext_linkView s
  case pulseEnd => rfl
  all_goals cases hc

theorem eventEffect_linkView {c : Instr} {f : State → State} (hf : eventEffect c = some f) (hc : movesLink c = false)
    (s : State) : (f s).linkView = s.linkView := by
  cases c <;> cases hf
  case responseTaken => exact takeResponse_linkView s
  case memoryPortGrant => exact granted_linkView (granted s)
  case memoryReturn r => exact returned_linkView (returned s r)
  case tick b => rfl
  case rqrstInAsserted =>
    unfold State.assertRqrstIn
    split
    · rfl
    · exact requesterReset_linkView s
  case rqrstInDeasserted => rfl
  all_goals cases hc

theorem withEntry_linkView {f : EntryIndex → State → Reply} (index : Byte) (s : State)
    (h : ∀ i, (f i s).state.linkView = s.linkView) : (withEntry index f s).state.linkView = s.linkView := by
  unfold withEntry
  split
  · rfl
  · exact h _

theorem withHold_linkView {f : Hold → State → Reply} (id : Byte) (s : State)
    (h : ∀ g, (f g s).state.linkView = s.linkView) : (withHold id f s).state.linkView = s.linkView := by
  unfold withHold
  split
  · rfl
  · exact h _

theorem amendRecord_linkView (d : List Byte) (n : Nat) (h : Hold) (s : State) :
    (amendRecord d n h s).state.linkView = s.linkView := by
  have slot : ∀ u : State, (u.amendSlot h.tag d).linkView = u.linkView := by
    intro u
    unfold State.amendSlot
    split <;> rfl
  unfold amendRecord State.amendHold
  split
  · rfl
  · split
    · rfl
    · change State.linkView (match h.point with | .before => _ | .after => _) = _
      split
      · exact slot _
      · rfl

theorem injectBody_linkView (k : AccessKind) (a : Word) (z : Byte) (d : List Byte) (s : State) :
    (injectBody k a z d s).state.linkView = s.linkView := by
  unfold injectBody
  split
  · rfl
  · repeat' split
    all_goals rfl

/-- What a command does at its block leaves the link's state as it is, but for SET-GROUP and FORGET. -/
theorem commandBody_linkView {c : Instr} {k : Command} {body : State → Reply} (h : commandBody c = some (k, body))
    (hc : movesLink c = false) (s : State) : (body s).state.linkView = s.linkView := by
  cases c <;> cases h
  case readEntry i => exact withEntry_linkView i s fun _ => rfl
  case writeEntry i im =>
    refine withEntry_linkView i s fun j => ?_
    unfold writeEntryAt
    split
    · rfl
    · split <;> rfl
  case enableEntry i =>
    refine withEntry_linkView i s fun j => ?_
    unfold enableEntryAt
    split
    · rfl
    · split <;> rfl
  case disableEntry i => exact withEntry_linkView i s fun _ => rfl
  case armEntry i => exact withEntry_linkView i s fun _ => rfl
  case disarmEntry i => exact withEntry_linkView i s fun _ => rfl
  case clearCount i => exact withEntry_linkView i s fun _ => rfl
  case readOverlay a n => unfold readOverlayBody; split <;> rfl
  case writeOverlay a n d => unfold writeOverlayBody; split <;> rfl
  case readTrace n => unfold readTraceBody; split <;> rfl
  case ackTrace n => unfold ackTraceBody; split <;> rfl
  case traceControl m n f =>
    unfold traceControlBody
    split
    · rfl
    · split <;> rfl
  case inspect id => exact withHold_linkView id s fun _ => rfl
  case release id => exact withHold_linkView id s fun h => endHold_linkView _ _ _ _ s h
  case amend id n d =>
    unfold amendBody
    split
    · exact withHold_linkView id s fun h => amendRecord_linkView d _ h s
    · rfl
  case fail id => exact withHold_linkView id s fun h => endHold_linkView _ _ _ _ s h
  case extend id u =>
    unfold extendBody
    split
    · refine withHold_linkView id s fun h => ?_
      unfold extendRecord
      split <;> rfl
    · rfl
  case setMode m => unfold setModeBody; split <;> rfl
  case peek a z => exact injectBody_linkView .peek a z [] s
  case poke a z d => exact injectBody_linkView .poke a z d s
  case accessResult id =>
    unfold accessResultBody
    split
    · rfl
    · split <;> rfl
  case resetRequester => exact startPulse_linkView s
  case attentionControl e => unfold attentionControlBody; split <;> rfl
  case setGroup g => cases hc
  case forget => cases hc
  all_goals rfl

/-- SET-GROUP and FORGET are the two commands whose bodies move the link's state (R135, R137). -/
theorem commandBody_movesLink {c : Instr} {k : Command} {body : State → Reply} (h : commandBody c = some (k, body))
    (hc : movesLink c = true) : (∃ g, k = .setGroup g ∧ body = setGroupBody g) ∨ (k = .forget ∧ body = forgetBody) := by
  cases c <;> cases h
  case setGroup g => exact .inl ⟨g, rfl, rfl⟩
  case forget => exact .inr ⟨rfl, rfl⟩
  all_goals cases hc

/-! ### How an invariant of the link's state is proved -/

/-- A property of the link's state that every row keeps; `A` is what it may assume of the rest of the state. -/
structure LinkKept (A P : State → Prop) : Prop where
  settled : ∀ s, A s → A s.settle
  queued : ∀ s q, A s → A { s with pending := q }
  view : ∀ s t, t.linkView = s.linkView → P s → P t
  inReset : ∀ por l s, P (State.inReset por l s)
  due : ∀ c f, dueEffect c = some f → movesLink c = true → ∀ s, P s → P (f s)
  event : ∀ c f, eventEffect c = some f → movesLink c = true → ∀ s, P s → P (f s)
  declined : ∀ s b k st, P s → s.batch = some b → b.turn k = true → P (s.answered b k st [])
  command : ∀ c k body, commandBody c = some (k, body) → ∀ s b, A s → P s → s.batch = some b → b.turn k = true →
    b.skips k = false → b.lacksRoom k = false → P (s.runBody k body)

namespace LinkKept

variable {A P : State → Prop}

theorem dueEffect (K : LinkKept A P) {c : Instr} {f : State → State} (hf : Machine.dueEffect c = some f) {s : State}
    (h : P s) : P (f s) := by
  cases hm : movesLink c with
  | true => exact K.due c f hf hm s h
  | false => exact K.view s _ (dueEffect_linkView hf hm s) h

theorem eventEffect (K : LinkKept A P) {c : Instr} {f : State → State} (hf : Machine.eventEffect c = some f) {s : State}
    (h : P s) : P (f s) := by
  cases hm : movesLink c with
  | true => exact K.event c f hf hm s h
  | false => exact K.view s _ (eventEffect_linkView hf hm s) h

theorem expireUpTo (K : LinkKept A P) (n : Nat) {s : State} (h : P s) : P (s.expireUpTo n) := by
  induction n generalizing s with
  | zero => exact h
  | succ n ih =>
    unfold State.expireUpTo
    split
    · exact h
    · exact ih (K.view s _ (expireNext_linkView s) h)

/-- Completing what is due keeps the property. -/
theorem settle (K : LinkKept A P) {s : State} (h : P s) : P s.settle :=
  K.dueEffect (c := .roundGapAbandon) rfl <| K.dueEffect (c := .responseGapAbandon) rfl <|
    K.dueEffect (c := .gapAbort) rfl <| K.expireUpTo _ <| K.dueEffect (c := .budgetStep) rfl <|
      K.dueEffect (c := .pulseEnd) rfl h

theorem takeCommand (K : LinkKept A P) {c : Instr} {k : Command} {body : State → Reply}
    (hk : Machine.commandBody c = some (k, body)) {s : State} (ha : A s) (h : P s) :
    P (s.takeCommand k (State.runBody k body)) := by
  rcases takeCommand_cases k (State.runBody k body) s with e | ⟨b, st, hb, turn, e⟩ | ⟨b, hb, turn, skips, room, e⟩
  · rw [e]; exact h
  · rw [e]; exact K.declined s b k st h hb turn
  · rw [e]; exact K.command c k body hk s b ha h hb turn skips room

theorem exec (K : LinkKept A P) {c : Instr} {s t : State} (ha : A s) (h : P s) (ht : exec c s = .next t) : P t := by
  cases rowStep_of_exec ht with
  | idle => exact h
  | leftInReset r => exact K.view s _ rfl h
  | left r => exact K.view s.settle _ rfl (K.settle h)
  | arrived _ hr => exact K.view s.settle _ (arrived_linkView (arrived_of_arrive hr)) (K.settle h)
  | powerDown => exact K.inReset _ _ s
  | powerUp l => exact K.inReset _ _ s
  | due hf => exact K.dueEffect hf h
  | event hf => exact K.eventEffect hf (K.settle h)
  | command hk => exact K.takeCommand hk (K.settled s ha) (K.settle h)

/-- Every step keeps the property. -/
theorem step (K : LinkKept A P) {s t : State} (ha : A s) (h : P s) (ht : step s = .next t) : P t := by
  unfold Sys2Proof.Machine.step at ht
  split at ht
  · cases ht; exact h
  · next i rest _ => exact K.exec (s := { s with pending := rest }) (K.queued s rest ha) (K.view s _ rfl h) ht

end LinkKept

end Sys2Proof.Machine
end

-- ==== The link state stays sound ====
section
/-! O14: the addresses stay in range, and the batch, the receiver and a waiting FORGET agree (R113, R119, R127, R131, R135,
R137). -/

namespace Sys2Proof.Machine

/-- The receiver is none of those that the batch has a say in: the unit runs nothing, sends nothing, and takes no part in a
round (R113). -/
def Receiver.isApart : Receiver → Bool
  | .idle | .receiving | .waiting _ => true
  | .running | .responding _ | .ready _ | .round _ => false

theorem not_responding_of_isApart {r : Receiver} (h : r.isApart = true) : r.isResponding = false := by
  cases r with
  | responding p => cases h
  | _ => rfl

/-- The property looks at the link's state alone, and not at the mark of a copied flag. -/
theorem State.LinkSound.of_view {s t : State} (h : s.LinkSound) (e : t.linkView = s.linkView) : t.LinkSound := by
  have link : t.linkAddress = s.linkAddress := congrArg LinkView.linkAddress e
  have group : t.groupAddress = s.groupAddress := congrArg LinkView.groupAddress e
  have forget : t.forgetPending = s.forgetPending := congrArg LinkView.forgetPending e
  have batch : t.batch = s.batch := congrArg LinkView.batch e
  have responding := isResponding_of_view e
  refine ⟨link ▸ h.link, group ▸ h.group, ?_, fun a ha => h.offered a ?_, fun hr => ?_,
    fun hb => ?_, fun b hb hba => ?_, fun hf => ?_⟩
  · rw [link, group]
    exact h.groupNeedsLink
  · exact (receiver_eq_iff_of_view e (q := .round (.enum a)) nofun).1 ha
  · rw [batch]
    exact h.running ((receiver_eq_iff_of_view e (q := .running) nofun).1 hr)
  · obtain ⟨quiet, noReady, noRound⟩ := h.busy (batch ▸ hb)
    refine ⟨responding.trans quiet, fun k hk => noReady k ?_, fun p hp => ?_⟩
    · exact (receiver_eq_iff_of_view e (q := .ready k) nofun).1 hk
    · obtain ⟨q, hq⟩ := (in_round_iff_of_view e).1 ⟨p, hp⟩
      exact noRound q hq
  · rw [link]
    exact h.addressed b (batch ▸ hb) hba
  · rw [batch, responding]
    exact h.forget (forget ▸ hf)

/-! ### What a FORGET, an answer and a move of the receiver keep -/

/-- The receiver goes where the batch has no say, from where no response is being sent (R113, R135). -/
theorem State.LinkSound.toApart {s : State} (h : s.LinkSound) (quiet : s.receiver.isResponding = false) {r : Receiver}
    (apart : r.isApart = true) : (s.toReceiver r).LinkSound where
  link := h.link
  group := h.group
  groupNeedsLink := h.groupNeedsLink
  offered a ha := by cases ha; cases apart
  running hr := by cases hr; cases apart
  busy _ := by
    refine ⟨not_responding_of_isApart apart, ?_, ?_⟩
    · rintro k ⟨⟩; cases apart
    · rintro p ⟨⟩; cases apart
  addressed := h.addressed
  forget hf := .inl ((h.forget hf).resolve_right (by simp [quiet]))

/-- With no batch in progress no FORGET waits but for the end of a response (R135, R136). -/
theorem State.LinkSound.no_forget {s : State} (h : s.LinkSound) (none : s.batch = none)
    (quiet : s.receiver.isResponding = false) : s.forgetPending = false := by
  cases hf : s.forgetPending with
  | false => rfl
  | true => simpa [none, quiet] using h.forget hf

/-- With no batch in progress, be it that the batch ends now, the receiver may begin a round or a response; a FORGET then
waits for the end of a response (R113, R121, R128, R135). -/
theorem State.LinkSound.noBatch {s : State} (h : s.LinkSound) (kept : Option Response) {r : Receiver}
    (offered : ∀ a, r = .round (.enum a) → 1 ≤ a.toNat ∧ a.toNat ≤ 15) (running : r ≠ .running)
    (forget : s.forgetPending = true → r.isResponding = true) :
    State.LinkSound { s with batch := none, kept := kept, receiver := r } where
  link := h.link
  group := h.group
  groupNeedsLink := h.groupNeedsLink
  offered := offered
  running hr := absurd hr running
  busy hb := by cases hb
  addressed b hb := by cases hb
  forget hf := .inr (forget hf)

/-- The same where a FORGET takes its effect with it: both addresses go (R135, R136). -/
theorem State.LinkSound.noBatch_forgetNow {s : State} (h : s.LinkSound) (kept : Option Response) {r : Receiver}
    (offered : ∀ a, r = .round (.enum a) → 1 ≤ a.toNat ∧ a.toNat ≤ 15) (running : r ≠ .running) :
    (State.forgetNow { s with batch := none, kept := kept, receiver := r }).LinkSound := by
  cases hf : s.forgetPending with
  | false => exact (h.noBatch kept offered running (by simp [hf])).of_view (by simp [State.linkView, hf])
  | true =>
    exact
      { link := by simp
        group := by simp
        groupNeedsLink := by simp
        offered := offered
        running := fun hr => absurd hr running
        busy := fun hb => by cases hb
        addressed := fun b hb => by cases hb
        forget := by simp }

/-- The same of a state that has no batch (R113, R121, R128). -/
theorem State.LinkSound.toFree {s : State} (h : s.LinkSound) (none : s.batch = none) {r : Receiver}
    (offered : ∀ a, r = .round (.enum a) → 1 ≤ a.toNat ∧ a.toNat ≤ 15) (running : r ≠ .running)
    (forget : s.forgetPending = true → r.isResponding = true) : (s.toReceiver r).LinkSound :=
  (h.noBatch s.kept offered running forget).of_view (by simp [State.linkView, none])

/-- A batch that stays the batch of its frame. -/
theorem State.LinkSound.mapBatch {s : State} (h : s.LinkSound) {f : Batch → Batch}
    (keeps : ∀ b, (f b).addressed = b.addressed) : State.LinkSound { s with batch := s.batch.map f } where
  link := h.link
  group := h.group
  groupNeedsLink := h.groupNeedsLink
  offered := h.offered
  running hr := by simpa using h.running hr
  busy hb := h.busy (by simpa using hb)
  addressed b hb hba := by
    obtain ⟨b', hb', rfl⟩ := Option.map_eq_some_iff.1 hb
    exact h.addressed b' hb' (keeps b' ▸ hba)
  forget hf := by simpa using h.forget hf

theorem answer_linkSound {s : State} (h : s.LinkSound) (c : Command) (st : CmdStatus) (res : List Byte) :
    (s.answer c st res).LinkSound := h.mapBatch fun _ => rfl

theorem setClearing_linkSound {s : State} (h : s.LinkSound) (c : Option ClearStep) : (s.setClearing c).LinkSound :=
  h.mapBatch fun _ => rfl

theorem answered_linkSound {s : State} {b : Batch} (h : s.LinkSound) (hb : s.batch = some b) (c : Command) (st : CmdStatus)
    (res : List Byte) : (s.answered b c st res).LinkSound := answer_of_batch hb c st res ▸ answer_linkSound h c st res

/-! ### Responses that end, pauses and frame starts -/

/-- The end of a response (R121, R135). -/
theorem endResponse_linkSound {s : State} (h : s.LinkSound) (responding : s.receiver.isResponding = true) :
    s.endResponse.LinkSound := by
  have none : s.batch = none := by
    cases hb : s.batch with
    | none => rfl
    | some b => simpa [responding] using (h.busy (by simp [hb])).1
  exact (h.noBatch_forgetNow s.kept (r := .idle) nofun (by simp)).of_view (by simp [State.linkView, State.endResponse, none])

/-- A receiver in a round, in RECEIVING or in a ready phase sends no response. -/
theorem not_responding_of_isReceiving {r : Receiver} (h : r.isReceiving = true) : r.isResponding = false := by
  cases r with
  | responding p => cases h
  | _ => rfl

theorem not_responding_of_inRound {r : Receiver} (h : r.inRound = true) : r.isResponding = false := by
  cases r with
  | responding p => cases h
  | _ => rfl

theorem abortFrame_linkSound {s : State} (h : s.LinkSound) : s.abortFrame.LinkSound := by
  unfold State.abortFrame
  split
  · next due => exact h.toApart (not_responding_of_isReceiving due.2) rfl
  · exact h

theorem abandonResponse_linkSound {s : State} (h : s.LinkSound) : s.abandonResponse.LinkSound := by
  unfold State.abandonResponse
  split
  · next due => exact endResponse_linkSound h due.2
  · exact h

theorem abandonRound_linkSound {s : State} (h : s.LinkSound) : s.abandonRound.LinkSound := by
  unfold State.abandonRound
  split
  · next due => exact h.toApart (not_responding_of_inRound due.2) rfl
  · exact h

theorem responseDone_linkSound {s : State} (h : s.LinkSound) : s.responseDone.LinkSound := by
  unfold State.responseDone
  split
  · next responding => exact endResponse_linkSound h responding
  · exact h

/-- A frame start ends a response as its last bit does, and then takes the receiver to RECEIVING (R113, R122). -/
theorem startFrame_linkSound {s : State} (h : s.LinkSound) : s.startFrame.LinkSound := by
  unfold State.startFrame
  split
  · next responding => exact ((endResponse_linkSound h responding).toApart (r := .receiving) rfl rfl).of_view rfl
  · next quiet => exact (h.toApart (r := .receiving) (by simpa using quiet) rfl).of_view rfl

theorem overlength_linkSound {s : State} (h : s.LinkSound) (n : Byte) : (s.overlength n).LinkSound := by
  unfold State.overlength
  split
  · next long => exact h.toApart (not_responding_of_isReceiving long.1) rfl
  · exact h

/-! ### Frames at their check byte -/

section Acting

variable {s : State} {f : Frame}

theorem act_of_reject (h : s.frameAction f = .reject) : s.act f = s.respond (buildResponse .rejectCheck []) := by
  simp only [State.act, h]

theorem act_of_command (h : s.frameAction f = .command) : s.act f = s.acceptCommand f := by
  simp only [State.act, h]

theorem act_of_group (h : s.frameAction f = .group) : s.act f = s.acceptGroup f := by
  simp only [State.act, h]

theorem act_of_readback (h : s.frameAction f = .readback) : s.act f = s.respond (s.kept.getD (buildResponse .empty [])) := by
  simp only [State.act, h, State.readBack]

theorem act_of_round {k : RoundKind} (h : s.frameAction f = .round k) : s.act f = s.toReceiver (.ready k) := by
  simp only [State.act, h]

theorem act_of_nothing (h : s.frameAction f = .nothing) : s.act f = s.toReceiver .idle := by
  simp only [State.act, h]

end Acting

/-- A batch begins with the receiver in RUNNING, an addressed one only at a unit that has the address (R113, R120, R123). -/
theorem newBatch_linkSound {s : State} (h : s.LinkSound) {addressed : Bool}
    (link : addressed = true → s.linkAddress.isSome = true) (kept : Option Response) (f : Frame) :
    State.LinkSound { s with kept := kept, receiver := .running, batch := some (newBatch addressed f) } where
  link := h.link
  group := h.group
  groupNeedsLink := h.groupNeedsLink
  offered a ha := by cases ha
  running _ := rfl
  busy _ := ⟨rfl, by rintro k ⟨⟩, by rintro p ⟨⟩⟩
  addressed b hb hba := by cases hb; exact link hba
  forget _ := .inl rfl

theorem respond_linkSound {s : State} (h : s.LinkSound) (none : s.batch = none) (r : Response) : (s.respond r).LinkSound :=
  (h.toFree (r := .responding r) none nofun (by simp) fun _ => rfl).of_view rfl

/-- Acting on a frame with no batch in progress (R118 to R124, R128). -/
theorem act_linkSound {s : State} (h : s.LinkSound) (none : s.batch = none) (quiet : s.receiver.isResponding = false)
    (f : Frame) : (s.act f).LinkSound := by
  cases action : s.frameAction f with
  | reject => exact act_of_reject action ▸ respond_linkSound h none _
  | command =>
    exact act_of_command action ▸ newBatch_linkSound h (fun _ => by simp [linkAddress_of_command action]) _ f
  | group => exact act_of_group action ▸ newBatch_linkSound h (fun ha => by cases ha) s.kept f
  | readback => exact act_of_readback action ▸ respond_linkSound h none _
  | round k =>
    have forget := h.no_forget none quiet
    exact act_of_round action ▸ h.toFree none nofun (by simp) (by simp [forget])
  | nothing => exact act_of_nothing action ▸ h.toApart quiet rfl

theorem checkTaken_linkSound {s : State} (h : s.LinkSound) (f : Frame) : (s.checkTaken f).LinkSound := by
  unfold State.checkTaken
  split
  · next receiving =>
    have quiet := not_responding_of_isReceiving receiving
    have counted : State.LinkSound { s.countCheck f with gap := 0 } := h.of_view rfl
    dsimp only
    split
    · exact counted.toApart quiet rfl
    · next none => exact act_linkSound counted (by simpa using none) quiet f
  · exact h

theorem actDeferred_linkSound {s : State} (h : s.LinkSound) : s.actDeferred.LinkSound := by
  unfold State.actDeferred
  split
  · next f waiting =>
    split
    · exact h
    · next none => exact act_linkSound h (by simpa using none) (by rw [waiting]; rfl) f
  all_goals exact h

/-! ### The end of a batch -/

theorem endAddressed_linkSound {s : State} (h : s.LinkSound) (b : Batch) : (s.endAddressed b).LinkSound := by
  unfold State.endAddressed
  dsimp only
  split
  · exact (h.noBatch (r := .responding b.response) (some b.response) nofun (by simp) fun _ => rfl).of_view rfl
  · next elsewhere => exact h.noBatch_forgetNow (some b.response) h.offered elsewhere

theorem endGroup_linkSound {s : State} (h : s.LinkSound) : s.endGroup.LinkSound := by
  unfold State.endGroup
  split
  · exact h.noBatch_forgetNow s.kept (r := .idle) nofun (by simp)
  · next elsewhere => exact h.noBatch_forgetNow s.kept h.offered elsewhere

theorem endBatch_linkSound {s : State} (h : s.LinkSound) : s.endBatch.LinkSound := by
  unfold State.endBatch
  split
  · exact h
  · split
    · split
      · exact endAddressed_linkSound h _
      · exact endGroup_linkSound h
    · exact h

/-! ### Rounds -/

theorem roundPart_enum {s : State} {k : RoundKind} {a : Byte} (h : s.roundPart k = some (.enum a)) :
    1 ≤ a.toNat ∧ a.toNat ≤ 15 := by
  unfold State.roundPart at h
  split at h
  · split at h
    · next range => cases h; exact range.2
    · cases h
  · split at h
    · simp at h
    · cases h

theorem not_responding_of_readyRound {r : Receiver} {k : RoundKind} (h : r.readyRound = some k) : r.isResponding = false := by
  cases r with
  | responding p => cases h
  | _ => rfl

theorem startRound_linkSound {s : State} (h : s.LinkSound) : s.startRound.LinkSound := by
  unfold State.startRound
  split
  · exact h
  · next k ready =>
    have quiet := not_responding_of_readyRound ready
    split
    · exact h
    · next free =>
      have none : s.batch = none := by
        simpa [State.holdsReadyPhase, Receiver.inReadyPhase, ready] using free
      have forget := h.no_forget none quiet
      split
      · next p part =>
        have offered : ∀ a, Receiver.round p = .round (.enum a) → 1 ≤ a.toNat ∧ a.toNat ≤ 15 := by
          rintro a ⟨⟩
          exact roundPart_enum part
        exact (h.toFree none offered (by simp) (by simp [forget])).of_view rfl
      · exact h.toApart quiet rfl

theorem completeEnum_linkSound {s : State} (h : s.LinkSound) : s.completeEnum.LinkSound := by
  unfold State.completeEnum
  split
  · next a round =>
    have quiet : s.receiver.isResponding = false := by rw [round]; rfl
    have idle := h.toApart (r := .idle) quiet rfl
    exact
      { link := fun b hb => by cases hb; exact h.offered a round
        group := h.group
        groupNeedsLink := fun _ => rfl
        offered := idle.offered
        running := idle.running
        busy := idle.busy
        addressed := fun _ _ _ => rfl
        forget := idle.forget }
  all_goals exact h

theorem completePoll_linkSound {s : State} (h : s.LinkSound) : s.completePoll.LinkSound := by
  unfold State.completePoll
  split
  · next f d again round => exact (h.toApart (r := .idle) (by rw [round]; rfl) rfl).of_view rfl
  all_goals exact h

theorem loseRound_linkSound {s : State} (h : s.LinkSound) (n : Nat) : (s.loseRound n).LinkSound := by
  unfold State.loseRound
  split
  · next sends =>
    refine h.toApart ?_ rfl
    cases hr : s.receiver with
    | responding r => simp [State.sendsOne, State.roundBits, hr] at sends
    | _ => rfl
  · exact h

/-! ### Commands -/

/-- SET-GROUP runs in an addressed batch alone, so at a unit that has a link address (R123, R137). -/
theorem setGroup_linkSound {s : State} (h : s.LinkSound) (link : s.linkAddress.isSome = true) (g : Byte) :
    (setGroupBody g s).state.LinkSound := by
  unfold setGroupBody groupOf
  split
  · exact h
  · next group named =>
    have range : ∀ a, group = some a → 16 ≤ a.toNat ∧ a.toNat ≤ 23 := by
      rintro a rfl
      split at named
      · cases named
      · split at named
        · next range => cases named; exact range
        · cases named
    exact
      { link := h.link
        group := range
        groupNeedsLink := fun _ => link
        offered := h.offered
        running := h.running
        busy := h.busy
        addressed := h.addressed
        forget := h.forget }

/-- A FORGET that has run waits for the end of its batch (R135, R136). -/
theorem forget_linkSound {s : State} (h : s.LinkSound) (busy : s.batch.isSome = true) : (forgetBody s).state.LinkSound where
  link := h.link
  group := h.group
  groupNeedsLink := h.groupNeedsLink
  offered := h.offered
  running := h.running
  busy := h.busy
  addressed := h.addressed
  forget _ := .inl busy

theorem commandBody_linkSound {c : Instr} {k : Command} {body : State → Reply} (hk : commandBody c = some (k, body))
    {s : State} {b : Batch} (h : s.LinkSound) (hb : s.batch = some b) (runs : b.skips k = false) :
    (body s).state.LinkSound := by
  cases hm : movesLink c with
  | false => exact h.of_view (commandBody_linkView hk hm s)
  | true =>
    rcases commandBody_movesLink hk hm with ⟨g, rfl, rfl⟩ | ⟨rfl, rfl⟩
    · have addressed : b.addressed = true := by simpa [Batch.skips, broadcastAllowed] using runs
      exact setGroup_linkSound h (h.addressed b hb addressed) g
    · exact forget_linkSound h (by simp [hb])

/-! ### CLEAR-UNIT's events -/

theorem clearingEffect_linkSound {s : State} (h : s.LinkSound) {c : ClearStep} {f : State → State} (hf : (f s).LinkSound) :
    (clearingEffect c f s).LinkSound := by
  unfold clearingEffect
  split
  · exact hf
  · exact h

theorem clearUnit_linkSound {s : State} (h : s.LinkSound) :
    (s.takeCommand .clearUnit fun s => s.clearTrace.setClearing (some .holds)).LinkSound := by
  rcases takeCommand_cases .clearUnit (fun s => s.clearTrace.setClearing (some .holds)) s with e | ⟨b, st, hb, -, e⟩ |
    ⟨b, -, -, -, -, e⟩
  · rw [e]; exact h
  · rw [e]; exact answered_linkSound h hb _ _ _
  · rw [e]; exact setClearing_linkSound (s := s.clearTrace) (h.of_view rfl) _

/-- A state in reset has no address, no batch and an idle receiver, as the part has right after reset (R127, R181). -/
theorem inReset_linkSound (por l : Bool) (s : State) : (s.inReset por l).LinkSound := reset_linkSound.of_view rfl

theorem eventEffect_linkSound {c : Instr} {f : State → State} (hf : eventEffect c = some f) (hc : movesLink c = true)
    {s : State} (h : s.LinkSound) : (f s).LinkSound := by
  cases c <;> cases hf
  case frameStart => exact startFrame_linkSound h
  case overlengthFrame d k n => exact overlength_linkSound h n
  case badCheckFrame f | commandFrame f | groupCommandFrame f | readbackFrame f | enumFrame f | pollFrame f
    | frameNotActedOn f => exact checkTaken_linkSound h f
  case deferredFrameAction => exact actDeferred_linkSound h
  case batchEnd => exact endBatch_linkSound h
  case responseSent => exact responseDone_linkSound h
  case roundStart => exact startRound_linkSound h
  case enumComplete => exact completeEnum_linkSound h
  case pollComplete => exact completePoll_linkSound h
  case arbitrationLoss n => exact loseRound_linkSound h n
  case clearUnit => exact clearUnit_linkSound h
  case clearUnitHolds =>
    exact clearingEffect_linkSound h (setClearing_linkSound (h.of_view (clearHolds_linkView s)) _)
  case clearUnitMatchTable =>
    exact clearingEffect_linkSound h (setClearing_linkSound (s := s.clearTable) (h.of_view rfl) _)
  case clearUnitOverlay =>
    exact clearingEffect_linkSound h (setClearing_linkSound (s := { s with store := [] }) (h.of_view rfl) _)
  case clearUnitEventLatch =>
    exact clearingEffect_linkSound h (answer_linkSound (s := { s with eventLatch := false }) (h.of_view rfl) _ _ _)
  all_goals cases hc

theorem linkSound_kept : LinkKept (fun _ => True) State.LinkSound where
  settled _ _ := trivial
  queued _ _ _ := trivial
  view _ _ e h := h.of_view e
  inReset := inReset_linkSound
  due c f hf hc s h := by
    cases c <;> cases hf
    case gapAbort => exact abortFrame_linkSound h
    case responseGapAbandon => exact abandonResponse_linkSound h
    case roundGapAbandon => exact abandonRound_linkSound h
    all_goals cases hc
  event _ _ hf hc _ h := eventEffect_linkSound hf hc h
  declined s b k st h hb _ := answered_linkSound h hb k st []
  command _ k _ hk _ _ _ h hb _ runs _ := answer_linkSound (commandBody_linkSound hk h hb runs) k _ _

/-- Settles O14: a row that moves the link's state keeps the addresses, the batch, the receiver and a waiting FORGET in
agreement, and every other row leaves them as they are but for the mark of a copied flag. -/
theorem everyStepKeepsTheLinkStateSound : Obligations.EveryStepKeepsTheLinkStateSound :=
  fun _ _ h ht => linkSound_kept.step trivial h ht

end Sys2Proof.Machine
end

-- ==== Responses fit in their frames ====
section
/-! O15: a batch keeps room for two bytes of each command still to come, so its response fits in 240 bytes; every response is
built with its check byte (R121, R146, R148, R150). `Batch.Fits` is what the batch keeps, and `Batch.Fits.answer` how an answer
uses its room. -/

namespace Sys2Proof.Machine

/-! ### How long entries and results are (R148, R150) -/

@[simp] theorem resultEntry_bytes_length (e : ResultEntry) : e.bytes.length = e.results.length + 2 := rfl

theorem withEntry_results_length {f : EntryIndex → State → Reply} {n : Nat} (index : Byte) {s : State}
    (h : ∀ i, (f i s).results.length ≤ n) : (withEntry index f s).results.length ≤ n := by
  unfold withEntry
  split
  · exact Nat.zero_le n
  · exact h _

theorem withHold_results_length {f : Hold → State → Reply} {n : Nat} (id : Byte) {s : State}
    (h : ∀ g, (f g s).results.length ≤ n) : (withHold id f s).results.length ≤ n := by
  unfold withHold
  split
  · exact Nat.zero_le n
  · exact h _

theorem length_flatMap_of_const {α : Type} {f : α → List Byte} {n : Nat} (h : ∀ x, (f x).length = n) (xs : List α) :
    (xs.flatMap f).length = n * xs.length := by
  simp [List.length_flatMap, h, Nat.mul_comm]

/-- Every entry has its echo and its status (R148, R150). -/
theorem two_le_largestEntry (c : Command) : 2 ≤ largestEntry c := by
  cases c with
  | readOverlay start count => simp only [largestEntry]; split <;> omega
  | readTrace count => simp only [largestEntry]; split <;> omega
  | _ => simp [largestEntry]

theorem readOverlayBody_results_length (start count : Byte) (s : State) :
    (readOverlayBody start count s).results.length + 2 ≤ largestEntry (.readOverlay start count) := by
  unfold readOverlayBody
  split
  · next range =>
    simp only [overlayRange, Bool.and_eq_true, decide_eq_true_eq] at range
    simp only [largestEntry, if_pos range.1, Memory.readRange_length]
    omega
  · exact two_le_largestEntry _

theorem readTraceBody_results_length (count : Byte) (s : State) :
    (readTraceBody count s).results.length + 2 ≤ largestEntry (.readTrace count) := by
  unfold readTraceBody
  split
  · next range =>
    have images := length_flatMap_of_const (fun r : TraceRecord => (image_of_record r).length) (s.log.take count.toNat)
    have taken := List.length_take_le count.toNat s.log
    simp only [largestEntry, if_pos range, List.length_cons, images]
    omega
  · exact two_le_largestEntry _

theorem listHoldsBody_results_length {s : State} (h : s.Bounded) :
    (listHoldsBody s).results.length + 2 ≤ largestEntry .listHolds := by
  have pairs := length_flatMap_of_const (f := fun g : Hold => [g.id, g.tagPoint]) (n := 2) (fun _ => rfl) s.holds
  have room := h.holds
  simp only [listHoldsBody, largestEntry, List.length_cons, pairs]
  omega

theorem extendBody_results_length (id : Byte) (u : Half) (s : State) : (extendBody id u s).results.length ≤ 3 := by
  unfold extendBody
  split
  · refine withHold_results_length id fun g => ?_
    unfold extendRecord
    split
    · exact Nat.zero_le 3
    · exact Nat.le_refl 3
  · exact Nat.zero_le 3

theorem injectBody_results_length (k : AccessKind) (a : Word) (z : Byte) (d : List Byte) (s : State) :
    (injectBody k a z d s).results.length ≤ 1 := by
  unfold injectBody
  split
  · exact Nat.zero_le 1
  · repeat' split
    · exact Nat.zero_le 1
    · exact Nat.zero_le 1
    · exact Nat.zero_le 1
    · exact Nat.le_refl 1

theorem accessResultBody_results_length (id : Byte) (s : State) : (accessResultBody id s).results.length ≤ 10 := by
  unfold accessResultBody
  split
  · exact Nat.zero_le 10
  · next a _ =>
    split
    · exact Nat.zero_le 10
    · exact Nat.zero_le 10
    all_goals exact (image_of_access a).length.le

/-- No command returns more than its largest entry holds (R150). -/
theorem commandBody_results_length {c : Instr} {k : Command} {body : State → Reply} (hk : commandBody c = some (k, body))
    {s : State} (h : s.Bounded) : (body s).results.length + 2 ≤ largestEntry k := by
  have none : ∀ {r : List Byte}, r.length ≤ 0 → r.length + 2 ≤ 2 := fun hr => Nat.add_le_add_right hr 2
  cases c <;> cases hk
  case status => exact Nat.add_le_add_right (statusRecord_of_state s).length.le 2
  case readEntry i =>
    exact Nat.add_le_add_right (withEntry_results_length i fun j => (image_of_entry s.table[j]).length.le) 2
  case writeEntry i im =>
    refine none (withEntry_results_length i fun j => ?_)
    unfold writeEntryAt
    split
    · exact Nat.le_refl 0
    · split <;> exact Nat.le_refl 0
  case enableEntry i =>
    refine none (withEntry_results_length i fun j => ?_)
    unfold enableEntryAt
    split
    · exact Nat.le_refl 0
    · split <;> exact Nat.le_refl 0
  case disableEntry i => exact none (withEntry_results_length i fun j => Nat.le_refl 0)
  case armEntry i => exact none (withEntry_results_length i fun j => Nat.le_refl 0)
  case disarmEntry i => exact none (withEntry_results_length i fun j => Nat.le_refl 0)
  case clearCount i => exact none (withEntry_results_length i fun j => Nat.le_refl 0)
  case readOverlay a n => exact readOverlayBody_results_length a n s
  case writeOverlay a n d => unfold writeOverlayBody; split <;> exact Nat.le_refl 2
  case readTrace n => exact readTraceBody_results_length n s
  case ackTrace n => unfold ackTraceBody; split <;> exact Nat.le_refl 2
  case traceControl m n f =>
    unfold traceControlBody
    split
    · exact Nat.le_refl 2
    · split <;> exact Nat.le_refl 2
  case listHolds => exact listHoldsBody_results_length h
  case inspect id => exact Nat.add_le_add_right (withHold_results_length id fun g => (image_of_hold g).length.le) 2
  case release id => exact none (withHold_results_length id fun g => Nat.le_refl 0)
  case amend id n d =>
    unfold amendBody
    split
    · refine none (withHold_results_length id fun g => ?_)
      unfold amendRecord
      split
      · exact Nat.le_refl 0
      · split <;> exact Nat.le_refl 0
    · exact Nat.le_refl 2
  case fail id => exact none (withHold_results_length id fun g => Nat.le_refl 0)
  case extend id u => exact Nat.add_le_add_right (extendBody_results_length id u s) 2
  case setMode m => unfold setModeBody; split <;> exact Nat.le_refl 2
  case peek a z => exact Nat.add_le_add_right (injectBody_results_length .peek a z [] s) 2
  case poke a z d => exact Nat.add_le_add_right (injectBody_results_length .poke a z d s) 2
  case accessResult id => exact Nat.add_le_add_right (accessResultBody_results_length id s) 2
  case setGroup g => unfold setGroupBody; split <;> exact Nat.le_refl 2
  case attentionControl e => unfold attentionControlBody; split <;> exact Nat.le_refl 2
  all_goals exact Nat.le_refl _

/-! ### What a batch keeps -/

/-- A batch makes one entry for each command answered, keeps room for two bytes of each command still to come, and stands at
CLEAR-UNIT while that is half done (R146, R148, R150, R171). -/
structure Batch.Fits (b : Batch) : Prop where
  count : b.position ≤ b.commands.length ∧ b.commands.length ≤ 17
  entries : b.entries.length = if b.addressed then b.position else 0
  room : b.used + 2 * (b.commands.length - b.position) ≤ 240
  clearing : b.clearing.isSome = true →
    b.commands[b.position]? = some .clearUnit ∧ b.stopped = false ∧ b.lacksRoom .clearUnit = false

theorem responsesFit_iff (s : State) : s.ResponsesFit ↔ (∀ b, s.batch = some b → b.Fits) ∧
    (∀ r, s.kept = some r → r.sound) ∧ ∀ r, s.receiver = .responding r → r.sound := by
  constructor
  · rintro ⟨count, entries, room, clearing, kept, sending⟩
    exact ⟨fun b hb => ⟨count b hb, entries b hb, room b hb, clearing b hb⟩, kept, sending⟩
  · rintro ⟨batch, kept, sending⟩
    exact ⟨fun b hb => (batch b hb).count, fun b hb => (batch b hb).entries, fun b hb => (batch b hb).room,
      fun b hb => (batch b hb).clearing, kept, sending⟩

/-- The next command leaves room for its entry and the entries to come (R150). -/
theorem Batch.Fits.answer {b : Batch} (h : b.Fits) {c : Command} (next : b.commands[b.position]? = some c) (st : CmdStatus)
    {res : List Byte}
    (room : b.addressed = true → b.used + (res.length + 2) + 2 * (b.commands.length - (b.position + 1)) ≤ 240) :
    (b.answer c st res).Fits := by
  have inside : b.position < b.commands.length := (List.getElem?_eq_some_iff.1 next).1
  have entries := h.entries
  refine ⟨⟨inside, h.count.2⟩, ?_, ?_, fun hc => by cases hc⟩ <;> cases ha : b.addressed <;> rw [ha] at entries
  · simpa [Batch.answer, ha] using entries
  · simpa [Batch.answer, ha] using entries
  · have used : (b.answer c st res).used = b.used := by simp [Batch.used, Batch.answer, ha]
    have before := h.room
    rw [used]
    change b.used + 2 * (b.commands.length - (b.position + 1)) ≤ 240
    omega
  · have used : (b.answer c st res).used = b.used + (res.length + 2) := by simp [Batch.used, Batch.answer, ha]
    rw [used]
    exact room ha

theorem next_of_turn {b : Batch} {c : Command} (h : b.turn c = true) :
    b.stopped = false ∧ b.clearing = none ∧ b.commands[b.position]? = some c := by
  simpa [Batch.turn, and_assoc] using h

/-- An entry without results takes the two bytes that are kept back for it. -/
theorem Batch.Fits.answer_short {b : Batch} (h : b.Fits) {c : Command} (next : b.commands[b.position]? = some c)
    (st : CmdStatus) : (b.answer c st []).Fits := by
  have inside : b.position < b.commands.length := (List.getElem?_eq_some_iff.1 next).1
  have before := h.room
  refine h.answer next st fun _ => ?_
  simp only [List.length_nil]
  omega

/-- A command that passes the room check may use its largest entry (R150). -/
theorem Batch.Fits.answer_run {b : Batch} (h : b.Fits) {c : Command} (next : b.commands[b.position]? = some c)
    (fits : b.lacksRoom c = false) (st : CmdStatus) {res : List Byte} (len : res.length + 2 ≤ largestEntry c) :
    (b.answer c st res).Fits := by
  refine h.answer next st fun addressed => ?_
  have largest := two_le_largestEntry c
  have room : largestEntry c ≤ b.room := by simpa [Batch.lacksRoom, addressed] using fits
  unfold Batch.room at room
  omega

/-- CLEAR-UNIT stays the batch's next command until its last event (R171). -/
theorem Batch.Fits.setClearing {b : Batch} (h : b.Fits) (next : b.commands[b.position]? = some .clearUnit)
    (running : b.stopped = false) (fits : b.lacksRoom .clearUnit = false) (c : Option ClearStep) :
    ({ b with clearing := c } : Batch).Fits := ⟨h.count, h.entries, h.room, fun _ => ⟨next, running, fits⟩⟩

theorem divideUpTo_length_le (n : Nat) (p : List Byte) : (divideUpTo n p).length ≤ n + 1 := by
  induction n generalizing p with
  | zero => cases p <;> simp [divideUpTo]
  | succ n ih =>
    cases p with
    | nil => simp [divideUpTo]
    | cons b r =>
      unfold divideUpTo
      split
      · next rest _ => exact Nat.succ_le_succ (ih rest)
      all_goals simp

/-- A new batch has at most seventeen commands and no entry (R145, R146). -/
theorem newBatch_fits (addressed : Bool) (f : Frame) : (newBatch addressed f).Fits := by
  have count : (newBatch addressed f).commands.length ≤ 17 := divideUpTo_length_le 16 f.payload
  refine ⟨⟨Nat.zero_le _, count⟩, ?_, ?_, fun hc => by cases hc⟩
  · cases addressed <;> rfl
  · change 0 + 2 * ((newBatch addressed f).commands.length - 0) ≤ 240
    omega

/-! ### Responses (R121, R151) -/

theorem buildResponse_sound (st : FrameStatus) {p : List Byte} (h : p.length ≤ 240) : (buildResponse st p).sound := ⟨h, rfl⟩

/-- The entries of a batch that is over: those made and two bytes for each command left (R149). -/
theorem allEntries_bytes_length (b : Batch) :
    (b.allEntries.flatMap ResultEntry.bytes).length = b.used + 2 * (b.commands.length - b.position) := by
  have left : ∀ cs : List Command,
      ((cs.map fun c => (⟨c.echo, .notRun, []⟩ : ResultEntry)).flatMap ResultEntry.bytes).length = 2 * cs.length := by
    intro cs
    rw [List.flatMap_map, length_flatMap_of_const (n := 2) fun c => rfl]
  rw [Batch.allEntries, List.flatMap_append, List.length_append, left, List.length_drop, List.length_flatMap, Batch.used]

theorem Batch.Fits.response {b : Batch} (h : b.Fits) : b.response.sound :=
  buildResponse_sound _ ((allEntries_bytes_length b).trans_le h.room)

/-! ### What moves the link's state keeps the responses -/

/-- The property looks at the batch, the kept response and a response being sent. -/
theorem State.ResponsesFit.of_parts {s t : State} (h : s.ResponsesFit) (batch : t.batch = s.batch) (kept : t.kept = s.kept)
    (sending : ∀ r, t.receiver = .responding r → s.receiver = .responding r) : t.ResponsesFit := by
  rw [responsesFit_iff] at h ⊢
  rw [batch, kept]
  exact ⟨h.1, h.2.1, fun r hr => h.2.2 r (sending r hr)⟩

theorem State.ResponsesFit.of_view {s t : State} (h : s.ResponsesFit) (e : t.linkView = s.linkView) : t.ResponsesFit :=
  h.of_parts (congrArg LinkView.batch e) (congrArg LinkView.kept e) fun r =>
    (receiver_eq_iff_of_view e (q := .responding r) nofun).1

theorem State.ResponsesFit.batch {s : State} {b : Batch} (h : s.ResponsesFit) (hb : s.batch = some b) : b.Fits :=
  ((responsesFit_iff s).1 h).1 b hb

/-- The receiver goes where no response is sent. -/
theorem State.ResponsesFit.toSilent {s : State} (h : s.ResponsesFit) {r : Receiver} (silent : r.isResponding = false) :
    (s.toReceiver r).ResponsesFit :=
  h.of_parts rfl rfl fun p hp => by cases hp; cases silent

theorem endResponse_responsesFit {s : State} (h : s.ResponsesFit) : s.endResponse.ResponsesFit :=
  h.of_parts rfl rfl fun _ hr => by cases hr

theorem respond_responsesFit {s : State} (h : s.ResponsesFit) {r : Response} (sound : r.sound) :
    (s.respond r).ResponsesFit := by
  rw [responsesFit_iff] at h ⊢
  exact ⟨h.1, h.2.1, fun p hp => by cases hp; exact sound⟩

/-- The batch becomes another one that fits. -/
theorem State.ResponsesFit.toBatch {s : State} (h : s.ResponsesFit) {b : Batch} (fits : b.Fits) :
    State.ResponsesFit { s with batch := some b } := by
  rw [responsesFit_iff] at h ⊢
  exact ⟨fun b' hb' => by cases hb'; exact fits, h.2⟩

theorem readBack_sound {s : State} (h : s.ResponsesFit) : (s.kept.getD (buildResponse .empty [])).sound := by
  cases hk : s.kept with
  | none => exact buildResponse_sound .empty (Nat.zero_le _)
  | some r => exact h.kept r hk

theorem act_responsesFit {s : State} (h : s.ResponsesFit) (f : Frame) : (s.act f).ResponsesFit := by
  cases action : s.frameAction f with
  | reject => exact act_of_reject action ▸ respond_responsesFit h (buildResponse_sound _ (Nat.zero_le _))
  | command =>
    rw [act_of_command action]
    have running := (h.toSilent (r := .running) rfl).toBatch (newBatch_fits true f)
    exact (responsesFit_iff _).2 ⟨((responsesFit_iff _).1 running).1, nofun, running.sending⟩
  | group =>
    exact act_of_group action ▸ (h.toSilent (r := .running) rfl).toBatch (newBatch_fits false f)
  | readback => exact act_of_readback action ▸ respond_responsesFit h (readBack_sound h)
  | round k => exact act_of_round action ▸ h.toSilent rfl
  | nothing => exact act_of_nothing action ▸ h.toSilent rfl

theorem checkTaken_responsesFit {s : State} (h : s.ResponsesFit) (f : Frame) : (s.checkTaken f).ResponsesFit := by
  unfold State.checkTaken
  split
  · have counted : State.ResponsesFit { s.countCheck f with gap := 0 } := h.of_view rfl
    dsimp only
    split
    · exact counted.toSilent rfl
    · exact act_responsesFit counted f
  · exact h

theorem actDeferred_responsesFit {s : State} (h : s.ResponsesFit) : s.actDeferred.ResponsesFit := by
  unfold State.actDeferred
  split
  · split
    · exact h
    · exact act_responsesFit h _
  all_goals exact h

theorem startFrame_responsesFit {s : State} (h : s.ResponsesFit) : s.startFrame.ResponsesFit := by
  unfold State.startFrame
  split <;> exact h.of_parts rfl rfl fun _ hr => by cases hr

/-- The response of an addressed batch is kept, and sent where the receiver still runs the batch (R121, R124, R151). -/
theorem endAddressed_responsesFit {s : State} {b : Batch} (h : s.ResponsesFit) (fits : b.Fits) :
    (s.endAddressed b).ResponsesFit := by
  have kept : State.ResponsesFit { s with batch := none, kept := some b.response } :=
    (responsesFit_iff _).2 ⟨nofun, fun r hr => by cases hr; exact fits.response, h.sending⟩
  unfold State.endAddressed
  dsimp only
  split
  · exact respond_responsesFit kept fits.response
  · exact kept.of_parts rfl rfl fun _ => id

theorem endGroup_responsesFit {s : State} (h : s.ResponsesFit) : s.endGroup.ResponsesFit := by
  refine (responsesFit_iff _).2 ⟨nofun, h.kept, fun r hr => ?_⟩
  change (if s.receiver = .running then Receiver.idle else s.receiver) = .responding r at hr
  split at hr
  · cases hr
  · exact h.sending r hr

theorem endBatch_responsesFit {s : State} (h : s.ResponsesFit) : s.endBatch.ResponsesFit := by
  unfold State.endBatch
  split
  · exact h
  · next b hb =>
    split
    · split
      · exact endAddressed_responsesFit h (h.batch hb)
      · exact endGroup_responsesFit h
    · exact h

theorem startRound_responsesFit {s : State} (h : s.ResponsesFit) : s.startRound.ResponsesFit := by
  unfold State.startRound
  split
  · exact h
  · split
    · exact h
    · split
      · exact h.of_parts rfl rfl fun _ hr => by cases hr
      · exact h.toSilent rfl

theorem completeEnum_responsesFit {s : State} (h : s.ResponsesFit) : s.completeEnum.ResponsesFit := by
  unfold State.completeEnum
  split
  · exact h.of_parts rfl rfl fun _ hr => by cases hr
  all_goals exact h

theorem completePoll_responsesFit {s : State} (h : s.ResponsesFit) : s.completePoll.ResponsesFit := by
  unfold State.completePoll
  split
  · exact h.of_parts rfl rfl fun _ hr => by cases hr
  all_goals exact h

/-! ### Answers and CLEAR-UNIT -/

theorem answered_responsesFit {s : State} {b : Batch} (h : s.ResponsesFit) {c : Command} {st : CmdStatus} {res : List Byte}
    (fits : (b.answer c st res).Fits) : (s.answered b c st res).ResponsesFit := h.toBatch fits

/-- What a command does at its block leaves the batch and the responses as they are. -/
theorem commandBody_parts {c : Instr} {k : Command} {body : State → Reply} (hk : commandBody c = some (k, body)) (s : State) :
    (body s).state.batch = s.batch ∧ (s.ResponsesFit → (body s).state.ResponsesFit) := by
  cases hm : movesLink c with
  | false =>
    have view := commandBody_linkView hk hm s
    exact ⟨congrArg LinkView.batch view, fun h => h.of_view view⟩
  | true =>
    rcases commandBody_movesLink hk hm with ⟨g, rfl, rfl⟩ | ⟨rfl, rfl⟩
    · unfold setGroupBody
      split
      · exact ⟨rfl, id⟩
      · exact ⟨rfl, fun h => h.of_parts rfl rfl fun _ => id⟩
    · exact ⟨rfl, fun h => h.of_parts rfl rfl fun _ => id⟩

theorem clearUnit_responsesFit {s : State} (h : s.ResponsesFit) :
    (s.takeCommand .clearUnit fun s => s.clearTrace.setClearing (some .holds)).ResponsesFit := by
  rcases takeCommand_cases .clearUnit (fun s => s.clearTrace.setClearing (some .holds)) s with e | ⟨b, st, hb, turn, e⟩ |
    ⟨b, hb, turn, -, fits, e⟩
  · rw [e]; exact h
  · obtain ⟨-, -, next⟩ := next_of_turn turn
    rw [e]
    exact answered_responsesFit h ((h.batch hb).answer_short next st)
  · obtain ⟨running, -, next⟩ := next_of_turn turn
    rw [e, setClearing_of_batch (s := s.clearTrace) (b := b) hb]
    exact State.ResponsesFit.toBatch (s := s.clearTrace) (h.of_view rfl) ((h.batch hb).setClearing next running fits _)

/-- A later event of CLEAR-UNIT keeps the property if it does from a batch that stands at CLEAR-UNIT (R171). -/
theorem clearingEffect_responsesFit {s : State} (h : s.ResponsesFit) {c : ClearStep} {f : State → State}
    (hf : ∀ b, s.batch = some b → b.commands[b.position]? = some .clearUnit → b.stopped = false →
      b.lacksRoom .clearUnit = false → (f s).ResponsesFit) : (clearingEffect c f s).ResponsesFit := by
  unfold clearingEffect
  split
  · next step =>
    unfold State.clearingStep at step
    split at step
    · cases step
    · next b hb =>
      obtain ⟨next, running, fits⟩ := (h.batch hb).clearing (by simp [step])
      exact hf b hb next running fits
  · exact h

/-- One of the events between the first and the last: the block's work leaves the link's state, and CLEAR-UNIT goes on. -/
theorem clearingEffect_goesOn {s : State} (h : s.ResponsesFit) {c d : ClearStep} {g : State → State}
    (view : (g s).linkView = s.linkView) : (clearingEffect c (fun s => (g s).setClearing (some d)) s).ResponsesFit := by
  refine clearingEffect_responsesFit h fun b hb next running fits => ?_
  have batch : (g s).batch = some b := (congrArg LinkView.batch view).trans hb
  rw [setClearing_of_batch batch]
  exact (h.of_view view).toBatch ((h.batch hb).setClearing next running fits _)

/-- The last event answers CLEAR-UNIT (R171). -/
theorem clearingEffect_ends {s : State} (h : s.ResponsesFit) :
    (clearingEffect .eventLatch (fun s => State.answer .clearUnit .ok [] { s with eventLatch := false }) s).ResponsesFit := by
  refine clearingEffect_responsesFit h fun b hb next _ _ => ?_
  rw [answer_of_batch (s := { s with eventLatch := false }) (b := b) hb]
  exact answered_responsesFit (s := { s with eventLatch := false }) (h.of_view rfl) ((h.batch hb).answer_short next .ok)

theorem eventEffect_responsesFit {c : Instr} {f : State → State} (hf : eventEffect c = some f) (hc : movesLink c = true)
    {s : State} (h : s.ResponsesFit) : (f s).ResponsesFit := by
  cases c <;> cases hf
  case frameStart => exact startFrame_responsesFit h
  case overlengthFrame d k n =>
    unfold State.overlength
    split
    · exact h.toSilent rfl
    · exact h
  case badCheckFrame f | commandFrame f | groupCommandFrame f | readbackFrame f | enumFrame f | pollFrame f
    | frameNotActedOn f => exact checkTaken_responsesFit h f
  case deferredFrameAction => exact actDeferred_responsesFit h
  case batchEnd => exact endBatch_responsesFit h
  case responseSent =>
    unfold State.responseDone
    split
    · exact endResponse_responsesFit h
    · exact h
  case roundStart => exact startRound_responsesFit h
  case enumComplete => exact completeEnum_responsesFit h
  case pollComplete => exact completePoll_responsesFit h
  case arbitrationLoss n =>
    unfold State.loseRound
    split
    · exact h.toSilent rfl
    · exact h
  case clearUnit => exact clearUnit_responsesFit h
  case clearUnitHolds => exact clearingEffect_goesOn h (clearHolds_linkView s)
  case clearUnitMatchTable => exact clearingEffect_goesOn (g := State.clearTable) h rfl
  case clearUnitOverlay => exact clearingEffect_goesOn (g := fun s => { s with store := [] }) h rfl
  case clearUnitEventLatch => exact clearingEffect_ends h
  all_goals cases hc

theorem dueEffect_responsesFit {c : Instr} {f : State → State} (hf : dueEffect c = some f) (hc : movesLink c = true)
    {s : State} (h : s.ResponsesFit) : (f s).ResponsesFit := by
  cases c <;> cases hf
  case gapAbort =>
    unfold State.abortFrame
    split
    · exact h.toSilent rfl
    · exact h
  case responseGapAbandon =>
    unfold State.abandonResponse
    split
    · exact endResponse_responsesFit h
    · exact h
  case roundGapAbandon =>
    unfold State.abandonRound
    split
    · exact h.toSilent rfl
    · exact h
  all_goals cases hc

theorem putQueue_keeps (q : List Instr) (s : State) : KeepsAllBut [.identity] s { s with pending := q } := by
  intro p; cases p <;> simp [Piece.Same]

theorem responsesFit_kept : LinkKept State.Bounded State.ResponsesFit where
  settled _ h := bounded_kept.settle h
  queued s q h := h.of_unbounded (putQueue_keeps q s) (by decide)
  view _ _ e h := h.of_view e
  inReset _ _ _ := reset_responsesFit.of_view rfl
  due _ _ hf hc _ h := dueEffect_responsesFit hf hc h
  event _ _ hf hc _ h := eventEffect_responsesFit hf hc h
  declined s b k st h hb turn := answered_responsesFit h ((h.batch hb).answer_short (next_of_turn turn).2.2 st)
  command c k body hk s b bounded h hb turn _ fits := by
    obtain ⟨batch, keeps⟩ := commandBody_parts hk s
    have entry := (h.batch hb).answer_run (next_of_turn turn).2.2 fits (body s).status (commandBody_results_length hk bounded)
    rw [State.runBody, answer_of_batch (batch.trans hb)]
    exact answered_responsesFit (keeps h) entry

/-- Settles O15: no command returns more than its largest entry, so an answered batch keeps its room, and the response of a
batch that is over is as long as what the room was kept for. -/
theorem everyStepKeepsResponsesWithinTheirFrame : Obligations.EveryStepKeepsResponsesWithinTheirFrame :=
  fun _ _ bounded h ht => responsesFit_kept.step bounded h ht

end Sys2Proof.Machine
end

-- ==== Answers and the end of a batch ====
section
/-! O50 and O52: what an answer adds to a batch, which commands are skipped or find no room, the response of a batch that is
over, and the bits of a response on LDA (R112, R121, R123, R135, R146, R148 to R152). -/

namespace Sys2Proof.Machine

/-! ### Taking a command (R123, R147, R149, R150) -/

/-- Every command row is the taking of its command; it runs by its body, or as CLEAR-UNIT's first event. -/
theorem exec_of_command {i : Instr} {c : Command} (h : i.command? = some c) (s : State) :
    ∃ run : State → State, exec i s = s.event (State.takeCommand c run) := by
  cases i <;> cases h
  case clearUnit => exact ⟨_, exec_of_eventEffect rfl s⟩
  all_goals exact ⟨_, exec_of_commandBody rfl s⟩

section Taking

variable {s : State} {b : Batch} {c : Command} (run : State → State)

theorem takeCommand_of_skips (hb : s.batch = some b) (turn : b.turn c = true) (skips : b.skips c = true) :
    s.takeCommand c run = s.answered b c .notRun [] := by
  simp only [State.takeCommand, hb, turn, skips, if_true, answer_of_batch hb]

theorem takeCommand_of_lacksRoom (hb : s.batch = some b) (turn : b.turn c = true) (runs : b.skips c = false)
    (full : b.lacksRoom c = true) : s.takeCommand c run = s.answered b c .noRoom [] := by
  simp only [State.takeCommand, hb, turn, runs, full, if_true, Bool.false_eq_true, if_false, answer_of_batch hb]

theorem takeCommand_of_not_turn (hb : s.batch = some b) (turn : b.turn c = false) : s.takeCommand c run = s := by
  simp only [State.takeCommand, hb, turn, Bool.false_eq_true, if_false]

end Taking

/-- What an answer adds to the batch, and when it stops it (R148, R149). -/
theorem answer_stopped_iff (b : Batch) (c : Command) (st : CmdStatus) (res : List Byte) :
    (b.answer c st res).stopped = true ↔
      b.stopped = true ∨ (st ≠ .ok ∧ b.continueOnError = false) ∨ st = .noRoom := by
  simp [Batch.answer, or_assoc]

/-- Settles O50: `takeCommand` in its three refusing branches, and the bodies of the commands of R146. -/
theorem executorAnswersEachCommandOnce : Obligations.ExecutorAnswersEachCommandOnce := by
  refine ⟨fun b c st res => ⟨rfl, rfl, fun addressed => if_pos addressed, fun group => ?_, answer_stopped_iff b c st res⟩,
    fun i c s b command ready hb => ?_, fun s b n => ?_⟩
  · exact if_neg (by simp [group])
  · obtain ⟨run, row⟩ := exec_of_command command s
    rw [row, event_of_ready ready]
    refine ⟨fun turn group outside => ?_, fun turn addressed full => ?_, fun turn => ?_⟩
    · rw [takeCommand_of_skips run hb turn (by simp [Batch.skips, group, outside])]
    · rw [takeCommand_of_lacksRoom run hb turn (by simp [Batch.skips, addressed]) (by simp [Batch.lacksRoom, addressed, full])]
    · rw [takeCommand_of_not_turn run hb turn]
  · exact ⟨fun run => command_refused run rfl, fun run => command_refused run rfl, fun run => command_refused run rfl⟩

/-! ### The end of a batch (R149, R151, R152) -/

theorem over_iff (b : Batch) :
    b.over = true ↔ b.clearing = none ∧ (b.stopped = true ∨ b.commands.length ≤ b.position) := by
  simp [Batch.over]

section Ending

variable {s : State} {b : Batch}

theorem endBatch_of_addressed (hb : s.batch = some b) (isOver : b.over = true) (addressed : b.addressed = true) :
    s.endBatch = s.endAddressed b := by
  simp only [State.endBatch, hb, isOver, addressed, if_true]

theorem endBatch_of_group (hb : s.batch = some b) (isOver : b.over = true) (group : b.addressed = false) :
    s.endBatch = s.endGroup := by
  simp only [State.endBatch, hb, isOver, group, if_true, Bool.false_eq_true, if_false]

theorem endAddressed_of_running (h : s.receiver = .running) :
    s.endAddressed b = State.respond b.response { s with batch := none, kept := some b.response } := if_pos h

theorem endAddressed_of_elsewhere (h : s.receiver ≠ .running) :
    s.endAddressed b = State.forgetNow { s with batch := none, kept := some b.response } := if_neg h

end Ending

/-- The response is OK where every entry is (R151). -/
theorem response_status (b : Batch) : b.response.status = if ∀ e ∈ b.allEntries, e.status = .ok then .ok else .part := by
  change b.frameStatus = _
  simp only [Batch.frameStatus, List.all_eq_true, decide_eq_true_eq]

/-! ### LDA while a response is sent (R112, R121) -/

/-- A unit that responds sends its response's bits, and is in no ready phase. -/
theorem ldaOut_of_responding {s : State} {r : Response} (live : s.porAsserted = false) (h : s.receiver = .responding r)
    (n : Nat) : s.ldaOut (n + 1) = (false :: bytesBits r.bytes).getD n true := by
  simp [State.ldaOut, live, State.holdsReadyPhase, Receiver.inReadyPhase, Receiver.readyRound, State.responseBits,
    State.roundBits, h]

theorem bytes_length (r : Response) : r.bytes.length = r.payload.length + 3 := by
  simp [Response.bytes, responseCovered]

/-- The unit neither keeps a ready phase going nor has a bit to send. -/
structure State.Silent (s : State) : Prop where
  ready : s.holdsReadyPhase = false
  response : s.responseBits = []
  round : s.roundBits = []

/-- A unit that has nothing to send releases the line (R112, R121). -/
theorem ldaOut_of_silent {s : State} (h : s.Silent) (n : Nat) : s.ldaOut n = true := by
  unfold State.ldaOut
  rw [h.ready, h.response, h.round]
  cases n <;> simp

theorem sendsNothing {s : State} (h : s.receiver = .idle ∨ s.receiver = .receiving ∨ s.receiver = .running) : s.Silent := by
  rcases h with h | h | h <;> constructor <;>
    simp [State.holdsReadyPhase, Receiver.inReadyPhase, Receiver.readyRound, State.responseBits, State.roundBits, h]

/-- The bits of a byte, most significant first (R112). -/
theorem byteBits_getElem? (b : Byte) {k : Nat} (hk : k < 8) : (byteBits b)[k]? = some (b.toNat.testBit (7 - k)) := by
  have bits : byteBits b = (List.range 8).map fun i => b.getLsbD (7 - i) := rfl
  rw [bits, List.getElem?_map, List.getElem?_range hk]
  rfl

/-- The bits of a string: byte `k / 8` first by its most significant bit (R112). -/
theorem bytesBits_getElem? {bs : List Byte} {k : Nat} (hk : k < 8 * bs.length) :
    (bytesBits bs)[k]? = some ((byteAt bs (k / 8)).testBit (7 - k % 8)) := by
  induction bs generalizing k with
  | nil => simp at hk
  | cons b bs ih =>
    rw [List.length_cons] at hk
    rw [bytesBits_cons]
    rcases Nat.lt_or_ge k 8 with head | tail
    · rw [List.getElem?_append_left (by simpa using head), byteBits_getElem? b head, Nat.div_eq_of_lt head,
        Nat.mod_eq_of_lt head]
      rfl
    · rw [List.getElem?_append_right (by simpa using tail), byteBits_length, ih (by omega)]
      have place : k / 8 = (k - 8) / 8 + 1 := by omega
      have bit : (k - 8) % 8 = k % 8 := by omega
      rw [place, bit]
      rfl

/-- Settles O52: `endBatch` in its branches; the response is read off `Batch.response`, and its bits off `ldaOut`. -/
theorem batchEndBuildsTheResponse : Obligations.BatchEndBuildsTheResponse := by
  refine ⟨fun s b ready hb clearing ended => ?_, fun s r live h => ⟨fun n _ => ldaOut_of_responding live h n, fun n hn => ?_⟩,
    fun s n h => ?_, fun bs k hk => bytesBits_getElem? hk⟩
  · have isOver := (over_iff b).2 ⟨clearing, ended⟩
    have row : exec .batchEnd s = .next s.endBatch := event_of_ready ready _
    refine ⟨rfl, response_status b, rfl, rfl, fun addressed running => ?_, fun addressed elsewhere => ?_, fun group => ?_⟩
    · rw [row, endBatch_of_addressed hb isOver addressed, endAddressed_of_running running]
      rfl
    · rw [row, endBatch_of_addressed hb isOver addressed, endAddressed_of_elsewhere elsewhere]
      rfl
    · rw [row, endBatch_of_group hb isOver group]
      rfl
  · obtain ⟨m, rfl⟩ := Nat.exists_eq_succ_of_ne_zero (Nat.ne_zero_of_lt hn)
    rw [Nat.succ_eq_add_one, ldaOut_of_responding live h, List.getD_eq_default]
    simp only [List.length_cons, bytesBits_length, bytes_length]
    omega
  · rcases h with idle | receiving | running | por
    · exact ldaOut_of_silent (sendsNothing (.inl idle)) n
    · exact ldaOut_of_silent (sendsNothing (.inr (.inl receiving))) n
    · exact ldaOut_of_silent (sendsNothing (.inr (.inr running))) n
    · exact if_pos por

end Sys2Proof.Machine
end

-- ==== Frames, pauses and the end of a response ====
section
/-! O56, O57 and O58: a frame at its check byte and one that has waited, frame starts, pauses, and the end of a response (R113,
R116 to R118, R120 to R125, R128, R130, R135; log entries 6 and 10). -/

namespace Sys2Proof.Machine

/-! ### A frame at its check byte -/

/-- The rows of a frame whose check byte is taken: the bytes decide, whatever the row says (log entry 10). -/
theorem exec_checkTaken {f : Frame} {row : Instr}
    (h : row ∈ [Instr.badCheckFrame f, .commandFrame f, .groupCommandFrame f, .readbackFrame f, .enumFrame f, .pollFrame f,
      .frameNotActedOn f]) (s : State) : exec row s = s.event (State.checkTaken f) := by
  simp only [List.mem_cons, List.not_mem_nil, or_false] at h
  rcases h with rfl | rfl | rfl | rfl | rfl | rfl | rfl <;> exact exec_of_eventEffect rfl s

/-- The check byte of a frame is counted where it is wrong, and the pause is measured anew (R116, R118, R125; log entry 6). -/
def State.checked (f : Frame) (s : State) : State :=
  { s with gap := 0, checkErrors := if f.good then s.checkErrors else min (s.checkErrors + 1) 255 }

section Taken

variable {s : State} {f : Frame}

theorem checkTaken_of_idle (receiving : s.receiver = .receiving) (none : s.batch = none) :
    s.checkTaken f = (s.checked f).act f := by
  simp [State.checkTaken, State.checked, State.countCheck, Receiver.isReceiving, receiving, none]

theorem checkTaken_of_batch (receiving : s.receiver = .receiving) (busy : s.batch.isSome = true) :
    s.checkTaken f = (s.checked f).toReceiver (.waiting f) := by
  simp [State.checkTaken, State.checked, State.countCheck, Receiver.isReceiving, receiving, busy]

theorem actDeferred_of_idle (waiting : s.receiver = .waiting f) (none : s.batch = none) : s.actDeferred = s.act f := by
  simp [State.actDeferred, waiting, none]

theorem actDeferred_of_batch (waiting : s.receiver = .waiting f) (busy : s.batch.isSome = true) : s.actDeferred = s := by
  simp [State.actDeferred, waiting, busy]

end Taken

/-- Settles O56: `checkTaken` and `actDeferred` with no batch in progress, and `act` on each action. -/
theorem takenFrameHasItsEffect : Obligations.TakenFrameHasItsEffect := by
  intro s f ready none
  refine ⟨fun row frame receiving => ?_, fun waiting => ?_, act_of_reject, act_of_command, act_of_group, fun action => ?_,
    fun k => act_of_round, act_of_nothing⟩
  · rw [exec_checkTaken frame, event_of_ready ready, checkTaken_of_idle receiving none]
    rfl
  · rw [exec_of_eventEffect (c := .deferredFrameAction) rfl, event_of_ready ready, actDeferred_of_idle waiting none]
  · rw [act_of_readback action, State.respond]
    congr 1
    cases s.kept <;> rfl

/-! ### Frame starts -/

theorem startFrame_of_quiet {s : State} (h : s.receiver.isResponding = false) :
    s.startFrame = { s with receiver := .receiving, gap := 0 } := by
  simp only [State.startFrame, h, Bool.false_eq_true, if_false]

theorem startFrame_of_responding {s : State} (h : s.receiver.isResponding = true) :
    s.startFrame = { s.forgetNow with receiver := .receiving, gap := 0 } := by
  simp only [State.startFrame, h, if_true]

theorem isResponding_of_eq {s : State} {r : Response} (h : s.receiver = .responding r) : s.receiver.isResponding = true := by
  rw [h]
  rfl

/-- Settles O57: `startFrame` from RESPONDING and from every other state, and the two rows of a frame with a batch in
progress. -/
theorem frameStartAndWaitingFrames : Obligations.FrameStartAndWaitingFrames := by
  have row : ∀ {s : State}, s.ready → exec .frameStart s = .next s.startFrame := fun ready => event_of_ready ready _
  refine ⟨fun s ready quiet => ?_, fun s r ready responding => ?_, fun s f ready busy =>
    ⟨fun receiving i frame => ?_, fun waiting => ?_⟩⟩
  · rw [row ready, startFrame_of_quiet quiet]
  · rw [row ready, startFrame_of_responding (isResponding_of_eq responding)]
    rfl
  · rw [exec_checkTaken frame, event_of_ready ready, checkTaken_of_batch receiving busy]
    rfl
  · rw [exec_of_eventEffect (c := .deferredFrameAction) rfl, event_of_ready ready, actDeferred_of_batch waiting busy]

/-! ### Pauses (R116, R122, R130) -/

theorem gapPassed_iff (s : State) : s.gapPassed = true ↔ 2000 < s.gap := decide_eq_true_iff

section Pauses

variable {s : State}

/-- A pause of no more than 2 ms does nothing. -/
theorem pause_of_short (short : s.gap ≤ 2000) : s.abortFrame = s ∧ s.abandonResponse = s ∧ s.abandonRound = s := by
  have passed : ¬ s.gapPassed = true := fun h => short.not_gt ((gapPassed_iff s).1 h)
  exact ⟨if_neg fun h => passed h.1, if_neg fun h => passed h.1, if_neg fun h => passed h.1⟩

theorem abortFrame_of_long (long : 2000 < s.gap) (receiving : s.receiver = .receiving) :
    s.abortFrame = s.toReceiver .idle := if_pos ⟨(gapPassed_iff s).2 long, by rw [receiving]; rfl⟩

theorem abandonResponse_of_long (long : 2000 < s.gap) (responding : s.receiver.isResponding = true) :
    s.abandonResponse = s.endResponse := if_pos ⟨(gapPassed_iff s).2 long, responding⟩

theorem abandonRound_of_long (long : 2000 < s.gap) (part : s.receiver.inRound = true) :
    s.abandonRound = s.toReceiver .idle := if_pos ⟨(gapPassed_iff s).2 long, part⟩

/-- A round proper, its ready phase, and a wait in RUNNING with its frame (R128, R130). -/
theorem inRound_of_part (h : (∃ p, s.receiver = .round p) ∨ (∃ k, s.receiver = .ready k) ∨
    ∃ f k, s.receiver = .waiting f ∧ roundOf f = some k) : s.receiver.inRound = true := by
  rcases h with ⟨p, h⟩ | ⟨k, h⟩ | ⟨f, k, h, opened⟩
  · rw [h]; rfl
  · rw [h]; rfl
  · simp [h, Receiver.inRound, Receiver.inReadyPhase, Receiver.readyRound, opened]

end Pauses

/-- Settles O58: the three due steps of a pause, an overlength frame, and `endResponse`. -/
theorem gapsOverlengthAndResponseEnd : Obligations.GapsOverlengthAndResponseEnd := by
  refine ⟨fun s live => ?_, fun s d c n ready receiving long => ?_, fun s r ready responding => ?_⟩
  · have abort : exec .gapAbort s = .next s.abortFrame := dueEvent_of_live live _
    have abandon : exec .responseGapAbandon s = .next s.abandonResponse := dueEvent_of_live live _
    have leave : exec .roundGapAbandon s = .next s.abandonRound := dueEvent_of_live live _
    rw [abort, abandon, leave]
    refine ⟨fun short => ?_, fun long => ⟨fun receiving => ?_, fun part => ?_, fun r responding => ?_⟩⟩
    · obtain ⟨frame, response, round⟩ := pause_of_short short
      rw [frame, response, round]
      exact ⟨rfl, rfl, rfl⟩
    · rw [abortFrame_of_long long receiving]
      rfl
    · rw [abandonRound_of_long long (inRound_of_part part)]
      rfl
    · rw [abandonResponse_of_long long (isResponding_of_eq responding)]
      rfl
  · have row : exec (.overlengthFrame d c n) s = .next (s.overlength n) := event_of_ready ready _
    have ends : s.overlength n = s.toReceiver .idle := if_pos ⟨by rw [receiving]; rfl, long⟩
    rw [row, ends]
    rfl
  · have row : exec .responseSent s = .next s.responseDone := event_of_ready ready _
    have ends : s.responseDone = s.endResponse := if_pos (isResponding_of_eq responding)
    rw [row, ends]
    rfl

end Sys2Proof.Machine
end

-- ==== Rounds ====
section
/-! O59 and O60: which units take part in a round, what completing or losing it does, and the bits that a unit sends in it
(R112, R128 to R133, R139 to R142, R189). -/

namespace Sys2Proof.Machine

/-! ### The start of a round (R128, R131, R139) -/

section Starting

variable {s : State} {k : RoundKind}

theorem exec_roundStart_of_part {p : RoundPart} (ready : s.ready) (awaits : s.awaitsRound k) (none : s.batch = none)
    (part : s.roundPart k = some p) : exec .roundStart s = .next { s with receiver := .round p, gap := 0 } := by
  have row : exec .roundStart s = .next s.startRound := event_of_ready ready _
  rw [row, startRound_of_awaitsRound awaits none, part]

theorem exec_roundStart_of_none (ready : s.ready) (awaits : s.awaitsRound k) (none : s.batch = none)
    (part : s.roundPart k = Option.none) : exec .roundStart s = .next { s with receiver := .idle } := by
  have row : exec .roundStart s = .next s.startRound := event_of_ready ready _
  rw [row, startRound_of_awaitsRound awaits none, part]
  rfl

end Starting

theorem roundPart_enum_of_out {s : State} {a : Byte} (h : s.linkAddress ≠ none ∨ a.toNat = 0 ∨ 15 < a.toNat) :
    s.roundPart (.enum a) = none := by
  refine if_neg fun ⟨free, low, high⟩ => ?_
  rcases h with link | zero | large
  · exact link free
  · omega
  · omega

/-- A unit with attention enabled takes part with its highest-ranked flag (R139). -/
theorem roundPart_poll {s : State} {f : Flag} {d : Byte} (enabled : s.attentionEnable = true)
    (highest : s.attention.highest = some (f, d)) : s.roundPart .poll = some (.poll f d false) := by
  simp [State.roundPart, enabled, highest]

theorem roundPart_poll_of_out {s : State} (h : s.attentionEnable = false ∨ s.attention = ⟨false, none, none, none⟩) :
    s.roundPart .poll = none := by
  rcases h with disabled | empty
  · simp [State.roundPart, disabled]
  · simp [State.roundPart, empty, Attention.highest]

/-! ### LDA in the ready phase and in the round proper (R128, R129) -/

/-- A unit that waits for a batch keeps the ready phase of its frame's round going. -/
theorem holdsReadyPhase_of_waiting {s : State} {f : Frame} {k : RoundKind} (waiting : s.receiver = .waiting f)
    (opened : roundOf f = some k) (busy : s.batch.isSome = true) : s.holdsReadyPhase = true := by
  simp [State.holdsReadyPhase, Receiver.inReadyPhase, Receiver.readyRound, waiting, opened, busy]

theorem ldaOut_of_holdsReadyPhase {s : State} (live : s.porAsserted = false) (h : s.holdsReadyPhase = true) (n : Nat) :
    s.ldaOut n = false := by
  simp [State.ldaOut, live, h]

/-- A unit that waits for a round without a batch has nothing to send. -/
theorem silent_of_awaitsRound {s : State} {k : RoundKind} (awaits : s.awaitsRound k) (none : s.batch = none) : s.Silent := by
  refine ⟨holdsReadyPhase_of_no_batch none, ?_, ?_⟩ <;> rcases awaits with h | ⟨f, h, -⟩ <;>
    simp [State.responseBits, State.roundBits, h]

theorem ldaOut_of_round {s : State} {p : RoundPart} (live : s.porAsserted = false) (h : s.receiver = .round p) (n : Nat) :
    s.ldaOut (n + 1) = s.roundBits.getD n true := by
  simp [State.ldaOut, live, State.holdsReadyPhase, Receiver.inReadyPhase, Receiver.readyRound, State.responseBits, h]

/-- Settles O59: `startRound` by the part that `roundPart` gives, and LDA by `holdsReadyPhase`. -/
theorem roundStartDecidesTakingPart : Obligations.RoundStartDecidesTakingPart := by
  refine ⟨fun s a ready awaits none => ⟨fun link low high => ?_, fun out => ?_⟩, fun s ready awaits none => ?_,
    fun s f k ready waiting opened busy => ?_, fun s k n awaits none => ?_, roundOf_eq_some_iff⟩
  · exact exec_roundStart_of_part ready awaits none (if_pos ⟨link, low, high⟩)
  · exact exec_roundStart_of_none ready awaits none (roundPart_enum_of_out out)
  · have takes : ∀ {f d}, s.attentionEnable = true → s.attention.highest = some (f, d) →
        exec .roundStart s = .next { s with receiver := .round (.poll f d false), gap := 0 } :=
      fun enabled highest => exec_roundStart_of_part ready awaits none (roundPart_poll enabled highest)
    refine ⟨fun enabled join => takes enabled ?_, fun d enabled join hold => takes enabled ?_,
      fun d enabled join hold expiry => takes enabled ?_, fun d enabled join hold expiry trace => takes enabled ?_,
      fun out => exec_roundStart_of_none ready awaits none (roundPart_poll_of_out out)⟩
    · simp [Attention.highest, join]
    · simp [Attention.highest, join, hold]
    · simp [Attention.highest, join, hold, expiry]
    · simp [Attention.highest, join, hold, expiry, trace]
  · have holds := holdsReadyPhase_of_waiting waiting opened busy
    have row : exec .roundStart s = .next s.startRound := event_of_ready ready _
    rw [row, startRound_of_batch busy]
    exact ⟨rfl, holds, ldaOut_of_holdsReadyPhase ready.1 holds⟩
  · have silent := silent_of_awaitsRound awaits none
    exact ⟨silent.ready, ldaOut_of_silent silent n⟩

/-! ### Completing and losing a round (R129, R132, R133, R140, R142) -/

theorem completeEnum_of_round {s : State} {a : Byte} (h : s.receiver = .round (.enum a)) :
    s.completeEnum = { s with linkAddress := some a, attention := s.attention.clear .join, receiver := .idle } := by
  simp only [State.completeEnum, h]

theorem completePoll_of_round {s : State} {f : Flag} {d : Byte} {again : Bool} (h : s.receiver = .round (.poll f d again)) :
    s.completePoll = { s with attention := if again then s.attention else s.attention.clear f, receiver := .idle } := by
  simp only [State.completePoll, h]

/-- The bits of an ENUM reply: identity, revision and their check byte (R132, R189). -/
theorem roundBits_of_enum {s : State} {a : Byte} (h : s.receiver = .round (.enum a)) :
    s.roundBits = bytesBits ([0x32, 0x14] ++ wordBytes s.serial ++ [s.revision,
      crc8 ([0x32, 0x14] ++ wordBytes s.serial ++ [s.revision])]) := by
  simp only [State.roundBits, h]
  rfl

/-- The bits of a POLL reply: four of the address, then kind, detail and check byte (R140, R189). -/
theorem roundBits_of_poll {s : State} {f : Flag} {d : Byte} {again : Bool} (h : s.receiver = .round (.poll f d again)) :
    s.roundBits = (byteBits (s.linkAddress.getD 0)).drop 4 ++
      bytesBits [f.kindByte, d, crc8 [s.linkAddress.getD 0, f.kindByte, d]] := by
  simp only [State.roundBits, h]
  rfl

theorem sendsOne_iff (s : State) (n : Nat) : s.sendsOne n = true ↔ 1 ≤ n ∧ s.roundBits[n - 1]? = some true := by
  simp [State.sendsOne]

/-- Settles O60: `completeEnum`, `completePoll` and `loseRound` in their branches, and the replies' bytes. -/
theorem roundsCompleteOrAreLost : Obligations.RoundsCompleteOrAreLost := by
  have completes : ∀ {s : State}, s.ready → exec .pollComplete s = .next s.completePoll := fun ready => event_of_ready ready _
  have loses : ∀ {s : State} (n : Nat), s.ready → exec (.arbitrationLoss n) s = .next (s.loseRound n) :=
    fun _ ready => event_of_ready ready _
  refine ⟨fun s a ready round => ⟨?_, roundBits_of_enum round, ?_⟩, fun s f d ready round => ⟨?_, roundBits_of_poll round, ?_⟩,
    fun s f d ready round => ?_, fun s p n live round => ldaOut_of_round live round n, fun f g d again => rfl,
    fun s n ready slot one => ?_, fun s n ready out => ?_⟩
  · have row : exec .enumComplete s = .next s.completeEnum := event_of_ready ready _
    rw [row, completeEnum_of_round round]
    rfl
  · rw [roundBits_of_enum round]
    rfl
  · rw [completes ready, completePoll_of_round round]
    rfl
  · rw [roundBits_of_poll round]
    rfl
  · rw [completes ready, completePoll_of_round round]
    rfl
  · rw [loses n ready, State.loseRound, if_pos ((sendsOne_iff s n).2 ⟨slot, one⟩)]
    rfl
  · have silent : ¬ s.sendsOne n = true := by
      rw [sendsOne_iff]
      rintro ⟨slot, one⟩
      rcases out with other | zero
      · exact other one
      · omega
    rw [loses n ready, State.loseRound, if_neg silent]

end Sys2Proof.Machine
end

-- ==== The link's commands ====
section
/-! O48: what the operands of SET-GROUP and ATTENTION-CONTROL name, and what the link's commands do with them (R135 to R137,
R143, R184). -/

namespace Sys2Proof.Machine

/-! ### Operands (R137, R143, R184) -/

/-- Operand 0 of SET-GROUP names no group. -/
theorem groupOf_zero : groupOf 0 = some none := rfl

theorem groupOf_of_group {g : Byte} (low : 16 ≤ g.toNat) (high : g.toNat ≤ 23) : groupOf g = some (some g) := by
  rw [groupOf, if_neg (by bv_omega), if_pos ⟨low, high⟩]

theorem groupOf_of_bad {g : Byte} (h : (1 ≤ g.toNat ∧ g.toNat ≤ 15) ∨ 24 ≤ g.toNat) : groupOf g = none := by
  rw [groupOf, if_neg (by bv_omega), if_neg (by omega)]

/-- Bytes 0 and 1 name off and on. -/
theorem onOff_of_le {e : Byte} (h : e.toNat ≤ 1) : onOff e = some (decide (e = 1)) := by
  obtain rfl | rfl : e = 0 ∨ e = 1 := by bv_omega
  · rfl
  · rfl

theorem onOff_of_gt {e : Byte} (h : 1 < e.toNat) : onOff e = none := by
  rw [onOff, if_neg (by bv_omega), if_neg (by bv_omega)]

/-! ### The bodies by what their operand names -/

theorem setGroupBody_of_some {g : Byte} {a : Option Byte} (h : groupOf g = some a) (s : State) :
    setGroupBody g s = done { s with groupAddress := a } := by
  rw [setGroupBody, h]

theorem setGroupBody_of_none {g : Byte} (h : groupOf g = none) (s : State) : setGroupBody g s = refuse .badOperand s := by
  rw [setGroupBody, h]

theorem attentionControlBody_of_some {e : Byte} {on : Bool} (h : onOff e = some on) (s : State) :
    attentionControlBody e s = done { s with attentionEnable := on } := by
  rw [attentionControlBody, h]

theorem attentionControlBody_of_none {e : Byte} (h : onOff e = none) (s : State) :
    attentionControlBody e s = refuse .badOperand s := by
  rw [attentionControlBody, h]

/-- Settles O48: each command by what its operand names; FORGET has none. -/
theorem linkCommandsSetTheirOperand : Obligations.LinkCommandsSetTheirOperand := by
  refine fun s b => ⟨fun g run => ⟨fun zero => ?_, fun low high => ?_, fun bad => ?_⟩,
    fun e run => ⟨fun defined => ?_, fun bad => ?_⟩, fun run => ?_⟩
  · subst zero
    exact command_done run (setGroupBody_of_some groupOf_zero s) rfl
  · exact command_done run (setGroupBody_of_some (groupOf_of_group low high) s) rfl
  · exact command_refused run (setGroupBody_of_none (groupOf_of_bad bad) s)
  · exact command_done run (attentionControlBody_of_some (onOff_of_le defined) s) rfl
  · exact command_refused run (attentionControlBody_of_none (onOff_of_gt bad) s)
  · exact command_done run (body := forgetBody) rfl rfl

end Sys2Proof.Machine
end

-- ==== Commands that are refused ====
section
/-! O51: every command is answered OK or refused, and one that is refused changes the batch alone (R154). -/

namespace Sys2Proof.Machine

/-! ### A command's body answers OK or refuses -/

/-- An answer to a command at state `s`: OK with any state and results, or a refusal (R154). -/
inductive Reply.OkOrRefused (s : State) : Reply → Prop
  | ok (t : State) (res : List Byte) : OkOrRefused s ⟨t, .ok, res⟩
  | refused (st : CmdStatus) : OkOrRefused s (refuse st s)

namespace Reply.OkOrRefused

variable {s : State} {r q : Reply}

/-- An answer that is not OK is the refusal by its status. -/
theorem eq_refuse (h : OkOrRefused s r) (notOk : r.status ≠ .ok) : r = refuse r.status s := by
  cases h with
  | ok t res => exact absurd rfl notOk
  | refused st => rfl

/-- A check between two answers. -/
theorem check {p : Prop} [Decidable p] (hr : OkOrRefused s r) (hq : OkOrRefused s q) :
    OkOrRefused s (if p then r else q) := by
  split
  · exact hr
  · exact hq

theorem withEntry {f : EntryIndex → State → Reply} (index : Byte) (h : ∀ i, OkOrRefused s (f i s)) :
    OkOrRefused s (Machine.withEntry index f s) := by
  unfold Machine.withEntry
  split
  · exact .refused _
  · exact h _

theorem withHold {f : Hold → State → Reply} (id : Byte) (h : ∀ g, OkOrRefused s (f g s)) :
    OkOrRefused s (Machine.withHold id f s) := by
  unfold Machine.withHold
  split
  · exact .refused _
  · exact h _

/-- The checks of PEEK and POKE (R104). -/
theorem injectBody (k : AccessKind) (a : Word) (z : Byte) (d : List Byte) :
    OkOrRefused s (Machine.injectBody k a z d s) := by
  unfold Machine.injectBody
  split
  · exact .refused _
  · exact .check (.refused _) (.check (.refused _) (.check (.refused _) (.ok _ _)))

theorem accessResultBody (id : Byte) : OkOrRefused s (Machine.accessResultBody id s) := by
  unfold Machine.accessResultBody
  split
  · exact .refused _
  · split
    · exact .refused _
    · exact .refused _
    · exact .ok _ _
    · exact .ok _ _

theorem traceControlBody (m : Byte) (n : Half) (f : Byte) : OkOrRefused s (Machine.traceControlBody m n f s) := by
  unfold Machine.traceControlBody
  split
  · exact .refused _
  · exact .check (.ok _ _) (.refused _)

theorem setModeBody (m : Byte) : OkOrRefused s (Machine.setModeBody m s) := by
  unfold Machine.setModeBody
  split
  · exact .refused _
  · exact .ok _ _

theorem setGroupBody (g : Byte) : OkOrRefused s (Machine.setGroupBody g s) := by
  unfold Machine.setGroupBody
  split
  · exact .refused _
  · exact .ok _ _

theorem attentionControlBody (e : Byte) : OkOrRefused s (Machine.attentionControlBody e s) := by
  unfold Machine.attentionControlBody
  split
  · exact .refused _
  · exact .ok _ _

end Reply.OkOrRefused

/-- Every command's body answers OK or refuses, by the checks that the command makes. -/
theorem commandBody_okOrRefused {i : Instr} {c : Command} {body : State → Reply} (h : commandBody i = some (c, body))
    (s : State) : (body s).OkOrRefused s := by
  cases i <;> cases h
  case readEntry n => exact .withEntry n fun _ => .ok _ _
  case writeEntry n im => exact .withEntry n fun _ => .check (.refused _) (.check (.ok _ _) (.refused _))
  case enableEntry n => exact .withEntry n fun _ => .check (.ok _ _) (.check (.ok _ _) (.refused _))
  case disableEntry n => exact .withEntry n fun _ => .ok _ _
  case armEntry n => exact .withEntry n fun _ => .ok _ _
  case disarmEntry n => exact .withEntry n fun _ => .ok _ _
  case clearCount n => exact .withEntry n fun _ => .ok _ _
  case readOverlay a n => exact .check (.ok _ _) (.refused _)
  case writeOverlay a n d => exact .check (.ok _ _) (.refused _)
  case readTrace n => exact .check (.ok _ _) (.refused _)
  case ackTrace n => exact .check (.ok _ _) (.refused _)
  case traceControl m n f => exact .traceControlBody m n f
  case inspect id => exact .withHold id fun _ => .ok _ _
  case release id => exact .withHold id fun _ => .ok _ _
  case amend id n d =>
    exact .check (.withHold id fun _ => .check (.refused _) (.check (.refused _) (.ok _ _))) (.refused _)
  case fail id => exact .withHold id fun _ => .ok _ _
  case extend id u => exact .check (.withHold id fun _ => .check (.refused _) (.ok _ _)) (.refused _)
  case setMode m => exact .setModeBody m
  case peek a z => exact .injectBody .peek a z []
  case poke a z d => exact .injectBody .poke a z d
  case accessResult id => exact .accessResultBody id
  case setGroup g => exact .setGroupBody g
  case attentionControl e => exact .attentionControlBody e
  case badOpcode b => exact .refused _
  case cutCommand b => exact .refused _
  case surplusCommand b => exact .refused _
  all_goals exact .ok _ _

/-! ### Commands that run -/

/-- Every command row but CLEAR-UNIT has a body. -/
theorem exists_commandBody {i : Instr} {c : Command} (h : i.command? = some c) (notClear : c ≠ .clearUnit) :
    ∃ body, commandBody i = some (c, body) := by
  cases i <;> cases h
  case clearUnit => exact absurd rfl notClear
  all_goals exact ⟨_, rfl⟩

/-- Settles O51: the command acts by its body, which leaves the batch to the executor and refuses where it does not answer
OK. -/
theorem refusedCommandChangesNothing : Obligations.RefusedCommandChangesNothing := by
  intro i c s b command notClear run
  obtain ⟨body, hbody⟩ := exists_commandBody command notClear
  have batch : (body s).state.batch = some b := (commandBody_parts hbody s).1.trans run.2.1
  have row : exec i s = .next ((body s).state.answered b c (body s).status (body s).results) :=
    (exec_of_commandBody hbody s).trans (command_of_runs run body batch)
  refine ⟨_, _, _, row, rfl, fun notOk => ?_⟩
  rw [(commandBody_okOrRefused hbody s).eq_refuse notOk]
  exact ⟨rfl, rfl⟩

end Sys2Proof.Machine
end

-- ==== The division of a payload ====
section
/-! O53: a command's bytes are divided back into the command, and so are the bytes of a list of commands, up to the first byte
that begins none of them (R145, R146, R182, R184). -/

namespace Sys2Proof.Machine

/-! ### Operands -/

/-- The two bytes of a number give the number back (R182). -/
theorem half_halfBytes (h : Half) : half (h.extractLsb' 8 8) (h.extractLsb' 0 8) = h := by
  have bound : h.toNat < 65536 := h.isLt
  apply BitVec.eq_of_toNat_eq
  rw [half_toNat, extract_toNat, extract_toNat]
  omega

/-- The four bytes of a number give the number back (R182). -/
theorem word_wordBytes (w : Word) :
    word (w.extractLsb' 24 8) (w.extractLsb' 16 8) (w.extractLsb' 8 8) (w.extractLsb' 0 8) = w := by
  have bound : w.toNat < 4294967296 := w.isLt
  apply BitVec.eq_of_toNat_eq
  simp only [word_toNat, extract_toNat]
  omega

theorem take2_halfBytes (h : Half) (r : List Byte) (k : Half → List Byte → Division) :
    take2 (halfBytes h ++ r) k = k h r := congrArg (k · r) (half_halfBytes h)

theorem take4_wordBytes (w : Word) (r : List Byte) (k : Word → List Byte → Division) :
    take4 (wordBytes w ++ r) k = k w r := congrArg (k · r) (word_wordBytes w)

theorem takeN_append {n : Nat} {d : List Byte} (len : d.length = n) (r : List Byte)
    (k : List Byte → List Byte → Division) : takeN n (d ++ r) k = k d r := by
  subst len
  rw [takeN, if_pos (by simp), List.take_left, List.drop_left]

/-! ### One command -/

/-- A command as a payload spells it: its operand strings have the length that division gives them, and it is none of the
three that cannot run (R145, R146). -/
def Spelled (c : Command) : Prop :=
  c.wellFormed = true ∧ (∀ n, c ≠ .badOpcode n) ∧ (∀ n, c ≠ .cutCommand n) ∧ ∀ n, c ≠ .surplusCommand n

/-- The opcode and the operands of a command are taken as that command, whatever follows them (R145, R184). -/
theorem takeCommand_operands {c : Command} (h : Spelled c) (r : List Byte) :
    takeCommand c.echo (c.operands ++ r) = .whole c r := by
  obtain ⟨len, notBad, notCut, notSurplus⟩ := h
  cases c
  case writeEntry i im => exact takeN_append (of_decide_eq_true len) r fun d r => .whole (.writeEntry i d) r
  case writeOverlay st n d => exact takeN_append (of_decide_eq_true len) r fun d r => .whole (.writeOverlay st n d) r
  case ackTrace n => exact take2_halfBytes n r fun n r => .whole (.ackTrace n) r
  case traceControl m t f =>
    exact take2_halfBytes t (f :: r) fun t r => take1 r fun f r => .whole (.traceControl m t f) r
  case amend id l d => exact takeN_append (of_decide_eq_true len) r fun d r => .whole (.amend id l d) r
  case extend id u => exact take2_halfBytes u r fun u r => .whole (.extend id u) r
  case peek a z => exact take4_wordBytes a (z :: r) fun a r => take1 r fun z r => .whole (.peek a z) r
  case poke a z d =>
    have addr := take4_wordBytes a (z :: (d ++ r)) fun a r => take1 r fun z r =>
      takeN (pokeDataLength z) r fun d r => .whole (.poke a z d) r
    have data := takeN_append (of_decide_eq_true len) r fun d r => .whole (.poke a z d) r
    exact addr.trans data
  case badOpcode n => exact absurd rfl (notBad n)
  case cutCommand n => exact absurd rfl (notCut n)
  case surplusCommand n => exact absurd rfl (notSurplus n)
  all_goals rfl

/-- A byte that names no command is unknown whatever follows it (R146). -/
theorem takeCommand_of_unnamed {n : Byte} (h : namesCommand n = false) (r : List Byte) : takeCommand n r = .unknown := by
  have unknown : takeCommand n [] = .unknown := by simpa [namesCommand] using h
  unfold takeCommand at unknown ⊢
  generalize n.toNat = op at unknown ⊢
  split
  -- the branch of the bytes that name no command
  case h_31 => rfl
  all_goals cases unknown

/-! ### Lists of commands -/

section

variable {n : Nat} {b : Byte} {r : List Byte}

theorem divideUpTo_nil (n : Nat) : divideUpTo n [] = [] := by
  cases n <;> rfl

theorem divideUpTo_of_whole {c : Command} {rest : List Byte} (h : takeCommand b r = .whole c rest) :
    divideUpTo (n + 1) (b :: r) = c :: divideUpTo n rest := by
  rw [divideUpTo, h]

theorem divideUpTo_of_cut (h : takeCommand b r = .cut) : divideUpTo (n + 1) (b :: r) = [.cutCommand b] := by
  rw [divideUpTo, h]

theorem divideUpTo_of_unknown (h : takeCommand b r = .unknown) : divideUpTo (n + 1) (b :: r) = [.badOpcode b] := by
  rw [divideUpTo, h]

end

/-- The bytes of commands are divided into those commands, and then what follows them is divided (R145). -/
theorem divideUpTo_encode {cs : List Command} (spelled : ∀ c ∈ cs, Spelled c) (n : Nat) (r : List Byte) :
    divideUpTo (cs.length + n) (cs.flatMap Command.encode ++ r) = cs ++ divideUpTo n r := by
  induction cs with
  | nil => rw [List.length_nil, Nat.zero_add, List.flatMap_nil, List.nil_append, List.nil_append]
  | cons c cs ih =>
    obtain ⟨head, tail⟩ := List.forall_mem_cons.1 spelled
    rw [List.length_cons, Nat.add_right_comm, List.flatMap_cons, List.append_assoc, Command.encode, List.cons_append,
      divideUpTo_of_whole (takeCommand_operands head _), ih tail, List.cons_append]

/-- Up to sixteen commands leave the rest of the sixteen to be found in what follows them (R145). -/
theorem dividePayload_encode {cs : List Command} (spelled : ∀ c ∈ cs, Spelled c) {n : Nat} (count : cs.length + n = 16)
    (r : List Byte) : dividePayload (cs.flatMap Command.encode ++ r) = cs ++ divideUpTo n r := by
  rw [dividePayload, ← count, divideUpTo_encode spelled]

/-- Settles O53: the commands are divided off, and what follows them begins with no command, a cut one, or the surplus. -/
theorem divisionFindsEncodedCommands : Obligations.DivisionFindsEncodedCommands := by
  refine ⟨fun cs most spelled => ?_, fun cs b r spelled => ⟨fun few unnamed => ?_, fun few cut => ?_, fun all => ?_⟩⟩
  · have divided := dividePayload_encode spelled (Nat.add_sub_of_le most) []
    rwa [divideUpTo_nil, List.append_nil, List.append_nil] at divided
  · obtain ⟨n, count⟩ := Nat.exists_eq_add_of_lt few
    rw [dividePayload_encode spelled (n := n + 1) count.symm, divideUpTo_of_unknown (takeCommand_of_unnamed unnamed r)]
  · obtain ⟨n, count⟩ := Nat.exists_eq_add_of_lt few
    rw [dividePayload_encode spelled (n := n + 1) count.symm, divideUpTo_of_cut cut]
  · rw [dividePayload_encode spelled (n := 0) all, divideUpTo]

end Sys2Proof.Machine
end

-- ==== SET-MODE and EVENT-CLEAR ====
section
/-! O42: what the operand of SET-MODE names, when a hold is suppressed, and what sets and clears the event latch (R36, R54, R123,
R166, R169). -/

namespace Sys2Proof.Machine

theorem setModeBody_of_some {m : Byte} {on : Bool} (h : onOff m = some on) (s : State) :
    setModeBody m s = done { s with noHold := on } := by
  rw [setModeBody, h]

theorem setModeBody_of_none {m : Byte} (h : onOff m = none) (s : State) : setModeBody m s = refuse .badOperand s := by
  rw [setModeBody, h]

/-- A hold is suppressed in no-hold mode alone (R54). -/
theorem holdAnswer_suppressed_iff (s : State) : s.holdAnswer = .suppressed ↔ s.noHold = true := by
  unfold State.holdAnswer
  split
  · next mode => exact iff_of_true rfl mode
  · next mode => exact iff_of_false (by split <;> exact HoldAnswer.noConfusion) mode

/-- No batch skips a command of the broadcast-allowed set (R123). -/
theorem skips_of_broadcastAllowed {c : Command} (h : broadcastAllowed c = true) (b : Batch) : b.skips c = false := by
  rw [Batch.skips, h, Bool.not_true, Bool.and_false]

/-- Settles O42: SET-MODE by what its operand names, and EVENT-CLEAR, which has no check. -/
theorem setModeAndEventClear : Obligations.SetModeAndEventClear := by
  refine ⟨⟨fun s b m run => ⟨fun off => ?_, fun on => ?_, fun notOff notOn => ?_⟩,
      fun s mode => (holdAnswer_suppressed_iff s).2 mode,
      fun s mode suppressed => Bool.false_ne_true (mode.symm.trans ((holdAnswer_suppressed_iff s).1 suppressed)),
      fun b m => skips_of_broadcastAllowed rfl b⟩,
    fun s b run => command_done run (body := eventClearBody) rfl rfl, fun s => rfl, skips_of_broadcastAllowed rfl,
    fun s late r data signals => (evaluated_latch_iff late r data s).2 (.inr signals)⟩
  · subst off
    exact command_done run (setModeBody_of_some rfl s) rfl
  · subst on
    exact command_done run (setModeBody_of_some rfl s) rfl
  · exact command_refused run (setModeBody_of_none (onOff_of_gt (by bv_omega)) s)

end Sys2Proof.Machine
end

-- ==== The step and the queue ====
section
/-! O1: how `step` reads the queue, an equation per constructor of the queue (log entry 2). -/

namespace Sys2Proof.Machine

theorem step_of_pending_cons {c : Instr} {rest : List Instr} {s : State} (front : s.pending = c :: rest) :
    step s = exec c { s with pending := rest } := by
  rw [step, front]

/-- An empty queue idles (log entry 2). -/
theorem step_of_pending_nil {s : State} (empty : s.pending = []) : step s = .next s := by
  rw [step, empty]

/-- Settles O1: the queue has a front command or is empty, and `step` has an equation for each. -/
theorem stepTakesTheFrontCommand : Obligations.StepTakesTheFrontCommand :=
  ⟨fun _ _ _ front => step_of_pending_cons front, fun _ empty => step_of_pending_nil empty⟩

end Sys2Proof.Machine
end
